-- ==== Sys2Proof/Word.lean ====
section
/-! DEFINITION. The block's word types (00_scope.md rules R7, R8, R9). Bit 0 is the least significant bit. -/

namespace Sys2Proof

/-- A request or response word, 32 bits (R7, R81, R88). -/
abbrev Word := BitVec 32

/-- The 16-bit first operand and the 16-bit result field (R7, R81, R88). -/
abbrev Half := BitVec 16

/-- A byte operand, or one device register's byte (R7). -/
abbrev Byte := BitVec 8

end Sys2Proof
end

