-- ==== Sys2Proof/Syntax.lean ====
section
/-! DEFINITION. The block's operations (R80, R84), the values of their operand fields, and the request's fields (R81).
One constructor of `Instr` for each row of spec/opcode_table.json. -/

namespace Sys2Proof

/-- The hour variants (R12). -/
inductive HourTag
  | h24 | am | pm
deriving DecidableEq, Repr

/-- What the request's 2-bit TAG field names (R81): an hour variant, or none. -/
inductive TagField
  | h24 | am | pm | none
deriving DecidableEq, Repr

/-- The square-wave frequency codes 0 to 3 (R39, R40). The names give the spec's figures; no rule uses a frequency. -/
inductive SqwFreq
  | f1 | f4096 | f8192 | f32768
deriving DecidableEq, Repr

/-- The alarm match-policy codes 0 to 7 (R35). 5 and 6 are the unused ones. -/
inductive MatchCode
  | seconds | minutes | hours | weekday | day | unused5 | unused6 | all
deriving DecidableEq, Repr

/-- The EEPROM protection levels 0 to 3 (R37, R95, R208). -/
inductive EepromLevel
  | none | quarter | half | all
deriving DecidableEq, Repr

/-- The assigned operation codes, in the order of the opcode map (R84). -/
inductive Op
  | bcdEnc | bcdDec | hourEnc | hourDec | hourNorm
  | secPack | secUnpack | minPack | wkdayPack | wkdayUnpack | dayPack | monthPack | monthUnpack | yearPack | yearUnpack
  | bitWr | bitTest | ctrlSqwfs | trimPack
  | almwkPack | pfWkdayUnpack | pfMonthUnpack | eewpPack
deriving DecidableEq, Repr

/-- The request formats (R82). -/
inductive ReqFormat
  | u8 | u8f | u16 | ht | htf | bw | bt | sq | aw | e2
deriving DecidableEq, Repr

/-- The five fields of a request word (R81): OP[31:27], TAG[26:25], F[24], B[23:16], A[15:0]. -/
structure Fields where
  op : BitVec 5
  tag : BitVec 2
  f : Bool
  b : Byte
  arg : Half
deriving DecidableEq, Repr

/-- Why a request spells no operation (R83, R85, R86, R87). -/
inductive Illegal
  /-- OP is 0x00 or 0x18 to 0x1F (R85). -/
  | unassignedOpcode
  /-- A bit of the format's reserved set is 1 (R83). -/
  | reservedBits
  /-- TAG = 0b11 on HOUR.ENC or HOUR.NORM (R86). -/
  | tagNone
  /-- Match code 5 or 6 on ALMWK.PACK (R87). -/
  | matchUnused
deriving DecidableEq, Repr

/-- The operations with their operands. `a` is the byte operand req[7:0]. -/
inductive Instr
  /-- BCD.ENC (R120) -/
  | bcdEnc (a : Byte)
  /-- BCD.DEC (R122) -/
  | bcdDec (a : Byte)
  /-- HOUR.ENC (R131): the tagged hour tag(a) -/
  | hourEnc (tag : TagField) (a : Byte)
  /-- HOUR.DEC (R133) -/
  | hourDec (a : Byte)
  /-- HOUR.NORM (R135): F is the target mode, true for 24-hour -/
  | hourNorm (to24 : Bool) (tag : TagField) (a : Byte)
  /-- SEC.PACK (R150): F is the ST fold -/
  | secPack (a : Byte) (st : Bool)
  /-- SEC.UNPACK (R151) -/
  | secUnpack (a : Byte)
  /-- MIN.PACK (R152) -/
  | minPack (a : Byte)
  /-- WKDAY.PACK (R155): F is the VBATEN fold -/
  | wkdayPack (a : Byte) (vbaten : Bool)
  /-- WKDAY.UNPACK (R156) -/
  | wkdayUnpack (a : Byte)
  /-- DAY.PACK (R157) -/
  | dayPack (a : Byte)
  /-- MONTH.PACK (R159) -/
  | monthPack (a : Byte)
  /-- MONTH.UNPACK (R160) -/
  | monthUnpack (a : Byte)
  /-- YEAR.PACK (R161): the whole 16-bit operand A -/
  | yearPack (y : Half)
  /-- YEAR.UNPACK (R162) -/
  | yearUnpack (a : Byte)
  /-- BIT.WR (R180): B is the mask, F the value -/
  | bitWr (a : Byte) (mask : Byte) (v : Bool)
  /-- BIT.TEST (R181): B is the mask -/
  | bitTest (a : Byte) (mask : Byte)
  /-- CTRL.SQWFS (R182): B[1:0] is the frequency code -/
  | ctrlSqwfs (a : Byte) (code : SqwFreq)
  /-- TRIM.PACK (R184): `a` is read as a signed byte -/
  | trimPack (a : Byte)
  /-- ALMWK.PACK (R200): B[2:0] is the match code, F the polarity -/
  | almwkPack (a : Byte) (code : MatchCode) (pol : Bool)
  /-- PF.WKDAY.UNPACK (R204) -/
  | pfWkdayUnpack (a : Byte)
  /-- PF.MONTH.UNPACK (R205) -/
  | pfMonthUnpack (a : Byte)
  /-- EEWP.PACK (R208): A[1:0] is the level -/
  | eewpPack (level : EepromLevel)
deriving DecidableEq, Repr

end Sys2Proof
end

