-- ==== Sys2Proof/WellFormed.lean ====
section
/-! DEFINITION. Which terms of `Instr` the block can be asked for. The two checks are those of R86 and R87; every other
operand fits its field by its type. -/

namespace Sys2Proof

/-- The tag operand names an hour variant (R86). -/
def TagField.named : TagField → Bool
  | .h24 | .am | .pm => true
  | .none => false

/-- The match code is one of R35's used codes (R87). -/
def MatchCode.used : MatchCode → Bool
  | .unused5 | .unused6 => false
  | .seconds | .minutes | .hours | .weekday | .day | .all => true

/-- R86: HOUR.ENC and HOUR.NORM, the only operations that read TAG, have a tag that names a variant. -/
def Instr.tagNamed : Instr → Bool
  | .hourEnc tag _ => tag.named
  | .hourNorm _ tag _ => tag.named
  | .bcdEnc _ | .bcdDec _ | .hourDec _ | .secPack _ _ | .secUnpack _ | .minPack _ | .wkdayPack _ _ | .wkdayUnpack _
  | .dayPack _ | .monthPack _ | .monthUnpack _ | .yearPack _ | .yearUnpack _ | .bitWr _ _ _ | .bitTest _ _
  | .ctrlSqwfs _ _ | .trimPack _ | .almwkPack _ _ _ | .pfWkdayUnpack _ | .pfMonthUnpack _ | .eewpPack _ => true

/-- R87: ALMWK.PACK has a used match code. -/
def Instr.matchUsed : Instr → Bool
  | .almwkPack _ code _ => code.used
  | .bcdEnc _ | .bcdDec _ | .hourEnc _ _ | .hourDec _ | .hourNorm _ _ _ | .secPack _ _ | .secUnpack _ | .minPack _
  | .wkdayPack _ _ | .wkdayUnpack _ | .dayPack _ | .monthPack _ | .monthUnpack _ | .yearPack _ | .yearUnpack _
  | .bitWr _ _ _ | .bitTest _ _ | .ctrlSqwfs _ _ | .trimPack _ | .pfWkdayUnpack _ | .pfMonthUnpack _
  | .eewpPack _ => true

/-- The instruction is one a request word can spell. -/
def Instr.wf (i : Instr) : Bool := i.tagNamed && i.matchUsed

end Sys2Proof
end

