-- ==== Sys2Proof/Decode.lean ====
section
/-! DEFINITION. The request word: its fields (R81), the formats' masks (R82), the opcode map (R84), the decoder (R98's
checks, in R221's order) and the encoder. A request is one 32-bit port value; it has no byte order (R64, R93). -/

namespace Sys2Proof

/-! ## Fields (R81) -/

/-- The request word with the given fields, each at its place. -/
def Fields.toWord (x : Fields) : Word :=
  x.op.setWidth 32 <<< 27 ||| x.tag.setWidth 32 <<< 25 ||| (BitVec.ofBool x.f).setWidth 32 <<< 24
    ||| x.b.setWidth 32 <<< 16 ||| x.arg.setWidth 32

/-- The fields of a request word. -/
def fieldsOf (req : Word) : Fields where
  op := req.extractLsb' 27 5
  tag := req.extractLsb' 25 2
  f := req.getLsbD 24
  b := req.extractLsb' 16 8
  arg := req.extractLsb' 0 16

/-- The byte operand a = A[7:0] (R81, R92). -/
def Fields.byteA (x : Fields) : Byte := x.arg.extractLsb' 0 8

/-! ## Operand fields that hold codes -/

/-- TAG codes (R12, R81). -/
def TagField.code : TagField → BitVec 2
  | .h24 => 0b00#2
  | .am => 0b01#2
  | .pm => 0b10#2
  | .none => 0b11#2

/-- The tag that a TAG field names (R12, R81). -/
def TagField.ofCode (c : BitVec 2) : TagField :=
  match c.toNat with
  | 0 => .h24
  | 1 => .am
  | 2 => .pm
  | _ => .none

/-- Square-wave frequency codes (R39). -/
def SqwFreq.code : SqwFreq → BitVec 2
  | .f1 => 0#2
  | .f4096 => 1#2
  | .f8192 => 2#2
  | .f32768 => 3#2

/-- The frequency that B[1:0] names (R39). -/
def SqwFreq.ofCode (c : BitVec 2) : SqwFreq :=
  match c.toNat with
  | 0 => .f1
  | 1 => .f4096
  | 2 => .f8192
  | _ => .f32768

/-- Match-policy codes (R35). -/
def MatchCode.code : MatchCode → BitVec 3
  | .seconds => 0#3
  | .minutes => 1#3
  | .hours => 2#3
  | .weekday => 3#3
  | .day => 4#3
  | .unused5 => 5#3
  | .unused6 => 6#3
  | .all => 7#3

/-- The policy that B[2:0] names (R35). -/
def MatchCode.ofCode (c : BitVec 3) : MatchCode :=
  match c.toNat with
  | 0 => .seconds
  | 1 => .minutes
  | 2 => .hours
  | 3 => .weekday
  | 4 => .day
  | 5 => .unused5
  | 6 => .unused6
  | _ => .all

/-- EEPROM protection levels (R208). -/
def EepromLevel.code : EepromLevel → BitVec 2
  | .none => 0#2
  | .quarter => 1#2
  | .half => 2#2
  | .all => 3#2

/-- The level that A[1:0] names (R208). -/
def EepromLevel.ofCode (c : BitVec 2) : EepromLevel :=
  match c.toNat with
  | 0 => .none
  | 1 => .quarter
  | 2 => .half
  | _ => .all

/-! ## Formats (R82) and the opcode map (R84) -/

/-- R82's column "Mask of OP + reserved bits". -/
def ReqFormat.mask : ReqFormat → Word
  | .u8 => 0xFFFFFF00#32
  | .u8f => 0xFEFFFF00#32
  | .u16 => 0xFFFF0000#32
  | .ht => 0xF9FFFF00#32
  | .htf => 0xF8FFFF00#32
  | .bw => 0xFE00FF00#32
  | .bt => 0xFF00FF00#32
  | .sq => 0xFFFCFF00#32
  | .aw => 0xFEF8FF00#32
  | .e2 => 0xFFFFFFFC#32

/-- The OP value of an operation (R84). -/
def Op.code : Op → BitVec 5
  | .bcdEnc => 0x01#5
  | .bcdDec => 0x02#5
  | .hourEnc => 0x03#5
  | .hourDec => 0x04#5
  | .hourNorm => 0x05#5
  | .secPack => 0x06#5
  | .secUnpack => 0x07#5
  | .minPack => 0x08#5
  | .wkdayPack => 0x09#5
  | .wkdayUnpack => 0x0A#5
  | .dayPack => 0x0B#5
  | .monthPack => 0x0C#5
  | .monthUnpack => 0x0D#5
  | .yearPack => 0x0E#5
  | .yearUnpack => 0x0F#5
  | .bitWr => 0x10#5
  | .bitTest => 0x11#5
  | .ctrlSqwfs => 0x12#5
  | .trimPack => 0x13#5
  | .almwkPack => 0x14#5
  | .pfWkdayUnpack => 0x15#5
  | .pfMonthUnpack => 0x16#5
  | .eewpPack => 0x17#5

/-- The operation an OP value is assigned to; 0x00 and 0x18 to 0x1F are reserved (R84, R85). -/
def Op.ofCode (c : BitVec 5) : Option Op :=
  match c.toNat with
  | 0x01 => some .bcdEnc
  | 0x02 => some .bcdDec
  | 0x03 => some .hourEnc
  | 0x04 => some .hourDec
  | 0x05 => some .hourNorm
  | 0x06 => some .secPack
  | 0x07 => some .secUnpack
  | 0x08 => some .minPack
  | 0x09 => some .wkdayPack
  | 0x0A => some .wkdayUnpack
  | 0x0B => some .dayPack
  | 0x0C => some .monthPack
  | 0x0D => some .monthUnpack
  | 0x0E => some .yearPack
  | 0x0F => some .yearUnpack
  | 0x10 => some .bitWr
  | 0x11 => some .bitTest
  | 0x12 => some .ctrlSqwfs
  | 0x13 => some .trimPack
  | 0x14 => some .almwkPack
  | 0x15 => some .pfWkdayUnpack
  | 0x16 => some .pfMonthUnpack
  | 0x17 => some .eewpPack
  | _ => none

/-- The format of an operation (R82, R84). -/
def Op.format : Op → ReqFormat
  | .bcdEnc | .bcdDec | .hourDec | .secUnpack | .minPack | .wkdayUnpack | .dayPack | .monthPack | .monthUnpack
  | .yearUnpack | .trimPack | .pfWkdayUnpack | .pfMonthUnpack => .u8
  | .secPack | .wkdayPack => .u8f
  | .yearPack => .u16
  | .hourEnc => .ht
  | .hourNorm => .htf
  | .bitWr => .bw
  | .bitTest => .bt
  | .ctrlSqwfs => .sq
  | .almwkPack => .aw
  | .eewpPack => .e2

/-- match(X) = OP(X) << 27 (R82). -/
def Op.matchWord (op : Op) : Word := op.code.setWidth 32 <<< 27

/-! ## The decoder (R98) -/

/-- The operation with the operands its format reads (R82, R92). -/
def instrOf (op : Op) (x : Fields) : Instr :=
  match op with
  | .bcdEnc => .bcdEnc x.byteA
  | .bcdDec => .bcdDec x.byteA
  | .hourEnc => .hourEnc (TagField.ofCode x.tag) x.byteA
  | .hourDec => .hourDec x.byteA
  | .hourNorm => .hourNorm x.f (TagField.ofCode x.tag) x.byteA
  | .secPack => .secPack x.byteA x.f
  | .secUnpack => .secUnpack x.byteA
  | .minPack => .minPack x.byteA
  | .wkdayPack => .wkdayPack x.byteA x.f
  | .wkdayUnpack => .wkdayUnpack x.byteA
  | .dayPack => .dayPack x.byteA
  | .monthPack => .monthPack x.byteA
  | .monthUnpack => .monthUnpack x.byteA
  | .yearPack => .yearPack x.arg
  | .yearUnpack => .yearUnpack x.byteA
  | .bitWr => .bitWr x.byteA x.b x.f
  | .bitTest => .bitTest x.byteA x.b
  | .ctrlSqwfs => .ctrlSqwfs x.byteA (SqwFreq.ofCode (x.b.extractLsb' 0 2))
  | .trimPack => .trimPack x.byteA
  | .almwkPack => .almwkPack x.byteA (MatchCode.ofCode (x.b.extractLsb' 0 3)) x.f
  | .pfWkdayUnpack => .pfWkdayUnpack x.byteA
  | .pfMonthUnpack => .pfMonthUnpack x.byteA
  | .eewpPack => .eewpPack (EepromLevel.ofCode (x.arg.extractLsb' 0 2))

/-- R98's four checks, in R221's order; a request that passes them spells the operation answered. -/
def decode (req : Word) : Except Illegal Instr :=
  match Op.ofCode (fieldsOf req).op with
  | none => .error .unassignedOpcode
  | some op =>
    if req &&& op.format.mask = op.matchWord then
      let i := instrOf op (fieldsOf req)
      if i.tagNamed then
        if i.matchUsed then .ok i else .error .matchUnused
      else .error .tagNone
    else .error .reservedBits

/-- The instruction the decoder reads from the request word `w` of `nbits` bits, the bits above them 0 (R93: a request
is exactly one 32-bit word, and a port value). -/
def decodeTableWord (nbits w : Nat) : Option Instr :=
  match decode (BitVec.ofNat 32 (w % 2 ^ nbits)) with
  | .ok i => some i
  | .error _ => none

/-! ## The encoder (R81, R82, R84) -/

/-- The operation of an instruction. -/
def Instr.op : Instr → Op
  | .bcdEnc _ => .bcdEnc
  | .bcdDec _ => .bcdDec
  | .hourEnc _ _ => .hourEnc
  | .hourDec _ => .hourDec
  | .hourNorm _ _ _ => .hourNorm
  | .secPack _ _ => .secPack
  | .secUnpack _ => .secUnpack
  | .minPack _ => .minPack
  | .wkdayPack _ _ => .wkdayPack
  | .wkdayUnpack _ => .wkdayUnpack
  | .dayPack _ => .dayPack
  | .monthPack _ => .monthPack
  | .monthUnpack _ => .monthUnpack
  | .yearPack _ => .yearPack
  | .yearUnpack _ => .yearUnpack
  | .bitWr _ _ _ => .bitWr
  | .bitTest _ _ => .bitTest
  | .ctrlSqwfs _ _ => .ctrlSqwfs
  | .trimPack _ => .trimPack
  | .almwkPack _ _ _ => .almwkPack
  | .pfWkdayUnpack _ => .pfWkdayUnpack
  | .pfMonthUnpack _ => .pfMonthUnpack
  | .eewpPack _ => .eewpPack

/-- A request's fields with every reserved field 0, the byte operand in A[7:0]. -/
def byteFields (op : Op) (a : Byte) : Fields :=
  { op := op.code, tag := 0#2, f := false, b := 0#8, arg := a.setWidth 16 }

/-- The fields of an instruction's request (R82): the fields its format reads, every reserved bit 0. -/
def Instr.fields (i : Instr) : Fields :=
  match i with
  | .bcdEnc a | .bcdDec a | .hourDec a | .secUnpack a | .minPack a | .wkdayUnpack a | .dayPack a | .monthPack a
  | .monthUnpack a | .yearUnpack a | .trimPack a | .pfWkdayUnpack a | .pfMonthUnpack a => byteFields i.op a
  | .secPack a f | .wkdayPack a f => { byteFields i.op a with f := f }
  | .yearPack y => { byteFields i.op 0#8 with arg := y }
  | .hourEnc tag a => { byteFields i.op a with tag := tag.code }
  | .hourNorm f tag a => { byteFields i.op a with tag := tag.code, f := f }
  | .bitWr a b f => { byteFields i.op a with b := b, f := f }
  | .bitTest a b => { byteFields i.op a with b := b }
  | .ctrlSqwfs a code => { byteFields i.op a with b := code.code.setWidth 8 }
  | .almwkPack a code f => { byteFields i.op a with b := code.code.setWidth 8, f := f }
  | .eewpPack level => { byteFields i.op 0#8 with arg := level.code.setWidth 16 }

/-- The request word of an instruction. -/
def encode (i : Instr) : Word := i.fields.toWord

end Sys2Proof
end

