-- ==== Sys2Proof/Machine/State.lean ====
section
/-! DEFINITION. The machine's state: the two ports of the block's interface (R21). The block itself holds no
architectural state (R20), so nothing else is here: no register, no program counter, no flag, no memory. -/

namespace Sys2Proof.Machine

/-- The values on the block's two ports (R21). -/
structure State where
  /-- Input port: the request word the requester presents (R81). -/
  req : Word
  /-- Output port: the response word last produced (R88). -/
  rsp : Word
deriving DecidableEq, Repr

/-- Reasons for which the machine stops. There is none, so the type has no constructor: an exception of the block is a
response word (R220, R225) and every request is answered (R10, R98). No meaning can answer with a fault. -/
inductive Fault
deriving DecidableEq, Repr

/-- Reasons for which the model gives no meaning. -/
inductive Refusal
  /-- Raised by an arm of `exec` that has no meaning yet; every arm has one, so nothing raises it. Safe: a refused
  instruction has no next state to claim anything about. -/
  | notModelled (mnemonic : String)
deriving DecidableEq, Repr

/-- The causes of an exception (R220). -/
inductive Cause
  /-- INVALID_INPUT: an operand outside its documented range. -/
  | invalidInput
  /-- ILLEGAL_REQUEST: the request spells no operation. -/
  | illegalRequest
deriving DecidableEq, Repr

/-- How an evaluation ends (R10): `ok(result, rtag, rflag)`, or a raised cause. -/
inductive Response
  | ok (result : Half) (rtag : BitVec 2) (rflag : Bool)
  | raised (cause : Cause)
deriving DecidableEq, Repr

/-- The machine before the first request. The block has no reset (R240) and the spec gives the ports no value there.
DESIGN CHOICE (log 2): `req` is the all-zero word. DEDUCED (log 3): `rsp` is the answer to it, since `rsp = Eval(req)`
(R21): the all-zero request is illegal (R85) and its response is 0x80000000 (R90). -/
def State.reset : State where
  req := 0x00000000#32
  rsp := 0x80000000#32

end Sys2Proof.Machine
end

