-- ==== Sys2Proof/Machine/Flags.lean ====
section
/-! DEFINITION. The response word (R88 to R90) and the two result flags RTAG and RFLAG (R91). -/

namespace Sys2Proof.Machine

/-- STATUS codes of the raised causes (R89). -/
def Cause.status : Cause → BitVec 2
  | .invalidInput => 0b01#2
  | .illegalRequest => 0b10#2

/-- The response word (R88): STATUS at bit 30, 0b00 for OK, RTAG at bit 28, RFLAG at bit 27, RESULT at bit 0, and
bits 26:16 are 0. When STATUS is not OK all the rest is 0 (R90). -/
def Response.toWord : Response → Word
  | .ok result rtag rflag =>
    rtag.setWidth 32 <<< 28 ||| (BitVec.ofBool rflag).setWidth 32 <<< 27 ||| result.setWidth 32
  | .raised cause => cause.status.setWidth 32 <<< 30

/-- STATUS of a response word (R88). -/
def rspStatus (rsp : Word) : BitVec 2 := rsp.extractLsb' 30 2

/-- RTAG of a response word (R88). -/
def rspTag (rsp : Word) : BitVec 2 := rsp.extractLsb' 28 2

/-- RFLAG of a response word (R88). -/
def rspFlag (rsp : Word) : Bool := rsp.getLsbD 27

/-- RESULT of a response word (R88). -/
def rspResult (rsp : Word) : Half := rsp.extractLsb' 0 16

/-- RTAG codes (R12, R91). -/
def hourTagCode : HourTag → BitVec 2
  | .h24 => 0b00#2
  | .am => 0b01#2
  | .pm => 0b10#2

/-- The hour variant that an RTAG field names (R12); 0b11 names none. -/
def hourTagOfCode (c : BitVec 2) : Option HourTag :=
  match c.toNat with
  | 0 => some .h24
  | 1 => some .am
  | 2 => some .pm
  | _ => none

/-- RFLAG of an hour operation: 1 exactly when the hour is in 24-hour form (R91). -/
def hourFlag : HourTag → Bool
  | .h24 => true
  | .am | .pm => false

/-- RFLAG of BIT.TEST: at least one of the masked bits is set (R181). -/
def maskFlag (a mask : Byte) : Bool := a &&& mask != 0#8

end Sys2Proof.Machine
end

