-- ==== Sys2Proof/Machine/Operands.lean ====
section
/-! DEFINITION. Operand readings and the codec functions every operation rule uses: widening and signed reading (R9,
R92), the BCD codec (R11), the hour codec's functions (R12, R130, R133, R135), and the fold of a bit. -/

namespace Sys2Proof.Machine

/-- `zext_16(v)` (R9). -/
def zext16 (v : Byte) : Half := v.setWidth 16

/-- The 16-bit result of a natural (R9). -/
def half (n : Nat) : Half := BitVec.ofNat 16 n

/-- `s8(v)`: the two's-complement reading of a byte (R9). -/
def s8 (v : Byte) : Int := v.toInt

/-- `u8(x)`: the 8-bit two's-complement pattern, x mod 256 (R9). -/
def u8 (x : Int) : Byte := BitVec.ofInt 8 x

/-- Decimal to packed BCD, truncated to a byte (R11, R120). -/
def bcd (n : Nat) : Byte := BitVec.ofNat 8 ((n / 10) * 16 + n % 10)

/-- Packed BCD to decimal, each nibble on its own and unchecked (R11, R122, R123). -/
def dec (b : Byte) : Nat := (b.extractLsb' 4 4).toNat * 10 + (b.extractLsb' 0 4).toNat

/-- A bit folded into a packed byte: `F << k` (glossary, "fold"). -/
def fold (f : Bool) (k : Nat) : Byte := (BitVec.ofBool f).setWidth 8 <<< k

/-- The hour variant a TAG operand names (R12, R86). -/
def hourTag? : TagField → Option HourTag
  | .h24 => some .h24
  | .am => some .am
  | .pm => some .pm
  | .none => none

/-- The TAG operand of an hour variant (R12, R81). -/
def tagField : HourTag → TagField
  | .h24 => .h24
  | .am => .am
  | .pm => .pm

/-- A tagged hour in its valid range (R130). -/
def validHour (t : HourTag) (h : Nat) : Bool :=
  match t with
  | .h24 => h ≤ 23
  | .am | .pm => 1 ≤ h && h ≤ 12

/-- The HOURS byte of a valid tagged hour (R131). -/
def hourByte (t : HourTag) (h : Nat) : Byte :=
  match t with
  | .h24 => bcd h
  | .am => 0x40#8 ||| bcd h
  | .pm => 0x60#8 ||| bcd h

/-- The tagged hour of an HOURS byte (R133): H24_H12 is bit 6, AM_PM is bit 5; both are stripped in 12-hour format,
H24_H12 only in 24-hour format (90_conflicts.md C1), bit 7 never. -/
def hourOfByte (a : Byte) : HourTag × Nat :=
  if a.getLsbD 6 then (if a.getLsbD 5 then .pm else .am, dec (a &&& 0x9F#8))
  else (.h24, dec (a &&& 0xBF#8))

/-- A valid tagged hour in 24-hour form (R135, F = 1). -/
def hourTo24 (t : HourTag) (h : Nat) : HourTag × Nat :=
  match t with
  | .h24 => (.h24, h)
  | .am => if h = 12 then (.h24, 0) else (.h24, h)
  | .pm => if h = 12 then (.h24, 12) else (.h24, h + 12)

/-- A valid tagged hour in 12-hour form (R135, F = 0). -/
def hourTo12 (t : HourTag) (h : Nat) : HourTag × Nat :=
  match t with
  | .am => (.am, h)
  | .pm => (.pm, h)
  | .h24 =>
    if h = 0 then (.am, 12)
    else if h ≤ 11 then (.am, h)
    else if h = 12 then (.pm, 12)
    else (.pm, h - 12)

/-- A valid tagged hour in the target mode (R135). -/
def hourToMode (to24 : Bool) (t : HourTag) (h : Nat) : HourTag × Nat :=
  if to24 then hourTo24 t h else hourTo12 t h

/-- The OSCTRIM byte of a signed trim value (R184). -/
def trimByte (v : Int) : Byte :=
  if v < 0 ∧ v ≠ -128 then 0x80#8 ||| ~~~(u8 (v - 1)) else u8 v

end Sys2Proof.Machine
end

