-- ==== Sys2Proof/Machine/Ops.lean ====
section
/-! DEFINITION. The operations every meaning is built from: answering a request, and raising an exception. Each writes
the output port and nothing else (R20, R225). -/

namespace Sys2Proof.Machine

/-- The response word is put on the output port (R21). -/
def State.respond (s : State) (r : Response) : State := { s with rsp := r.toWord }

/-- The requester presents a request word on the input port (R21, R71). -/
def State.present (s : State) (req : Word) : State := { s with req := req }

/-- `return ok(result, rtag, rflag)` (R10). -/
def answer (result : Half) (rtag : BitVec 2) (rflag : Bool) (s : State) : Host.Outcome State Fault Refusal :=
  .next (s.respond (.ok result rtag rflag))

/-- `return ok(result)`: RTAG = 0 and RFLAG = 0 (R10, R91). -/
def complete (result : Half) (s : State) : Host.Outcome State Fault Refusal := answer result 0b00#2 false s

/-- `return ok(zext_16(h), rtag = t, rflag = (t == H24))`: an hour result (R91, R133, R135). -/
def completeHour (th : HourTag × Nat) (s : State) : Host.Outcome State Fault Refusal :=
  answer (half th.2) (hourTagCode th.1) (hourFlag th.1) s

/-- Taking an exception (R220, R222, R225): the response word carries the cause's STATUS and nothing else, no state is
saved, no mode changes and no vector is taken; the machine goes on with the next request (R226). There is no return
from it, because there is nothing to return from. -/
def raise (cause : Cause) (s : State) : Host.Outcome State Fault Refusal := .next (s.respond (.raised cause))

end Sys2Proof.Machine
end

