-- ==== Sys2Proof/Machine/AlarmPowerFailEeprom.lean ====
section
/-! DEFINITION. The alarm, power-fail log and EEPROM-protection packers (44_alarm_powerfail_eeprom.md). -/

namespace Sys2Proof.Machine

/-- ALMWK.PACK (R200): weekday in bits 2:0, ALMIF (bit 3) written 0, the match code in bits 6:4, the polarity in bit 7.
An unused match code is an illegal request, ahead of the range check (R87, R221); the decoder refuses such a request, so
that arm answers only terms that are not well-formed (DEDUCED, log 5). -/
def execAlmwkPack (a : Byte) (code : MatchCode) (pol : Bool) (s : State) : Host.Outcome State Fault Refusal :=
  if !code.used then raise .illegalRequest s
  else if a.toNat < 1 ∨ 7 < a.toNat then raise .invalidInput s
  else complete (zext16 (bcd a.toNat ||| (code.code.setWidth 8 <<< 4) ||| fold pol 7)) s

/-- PF.WKDAY.UNPACK (R204): bits 7:5, not range-checked. -/
def execPfWkdayUnpack (a : Byte) (s : State) : Host.Outcome State Fault Refusal :=
  complete (half (a.extractLsb' 5 3).toNat) s

/-- PF.MONTH.UNPACK (R205): BCD of bits 4:0. -/
def execPfMonthUnpack (a : Byte) (s : State) : Host.Outcome State Fault Refusal :=
  complete (half (dec (a &&& 0x1F#8))) s

/-- EEWP.PACK (R208): the level in bits 3:2. -/
def execEewpPack (level : EepromLevel) (s : State) : Host.Outcome State Fault Refusal :=
  complete (zext16 (level.code.setWidth 8 <<< 2)) s

end Sys2Proof.Machine
end

