-- ==== Sys2Proof/Machine/Bcd.lean ====
section
/-! DEFINITION. The BCD codec: BCD.ENC and BCD.DEC (40_bcd.md). -/

namespace Sys2Proof.Machine

/-- BCD.ENC (R120, R121). -/
def execBcdEnc (a : Byte) (s : State) : Host.Outcome State Fault Refusal := complete (zext16 (bcd a.toNat)) s

/-- BCD.DEC (R122, R123). -/
def execBcdDec (a : Byte) (s : State) : Host.Outcome State Fault Refusal := complete (half (dec a)) s

end Sys2Proof.Machine
end

