-- ==== Sys2Proof/Machine/ControlTrim.lean ====
section
/-! DEFINITION. The flag, control-field and trim packers (43_control_trim.md). -/

namespace Sys2Proof.Machine

/-- BIT.WR (R180). -/
def execBitWr (a mask : Byte) (v : Bool) (s : State) : Host.Outcome State Fault Refusal :=
  complete (zext16 (if v then a ||| mask else a &&& ~~~mask)) s

/-- BIT.TEST (R181): RESULT is 0, the test is RFLAG. -/
def execBitTest (a mask : Byte) (s : State) : Host.Outcome State Fault Refusal :=
  answer 0#16 0b00#2 (maskFlag a mask) s

/-- CTRL.SQWFS (R182): the code replaces bits 1:0. -/
def execCtrlSqwfs (a : Byte) (code : SqwFreq) (s : State) : Host.Outcome State Fault Refusal :=
  complete (zext16 ((a &&& 0xFC#8) ||| code.code.setWidth 8)) s

/-- TRIM.PACK (R184, R185). -/
def execTrimPack (a : Byte) (s : State) : Host.Outcome State Fault Refusal := complete (zext16 (trimByte (s8 a))) s

end Sys2Proof.Machine
end

