-- ==== Sys2Proof/Machine/Hour.lean ====
section
/-! DEFINITION. The hour-format codec: HOUR.ENC, HOUR.DEC and HOUR.NORM (41_hour.md). A tag operand that names no
variant is an illegal request (R86); the decoder refuses such a request, so those arms answer only terms that are not
well-formed (DEDUCED, log 5). -/

namespace Sys2Proof.Machine

/-- HOUR.ENC (R131, R132). -/
def execHourEnc (tag : TagField) (a : Byte) (s : State) : Host.Outcome State Fault Refusal :=
  match hourTag? tag with
  | none => raise .illegalRequest s
  | some t =>
    if validHour t a.toNat then answer (zext16 (hourByte t a.toNat)) 0b00#2 (hourFlag t) s
    else raise .invalidInput s

/-- HOUR.DEC (R133, R134). -/
def execHourDec (a : Byte) (s : State) : Host.Outcome State Fault Refusal := completeHour (hourOfByte a) s

/-- HOUR.NORM (R135, R136). The input is validated in every case. -/
def execHourNorm (to24 : Bool) (tag : TagField) (a : Byte) (s : State) : Host.Outcome State Fault Refusal :=
  match hourTag? tag with
  | none => raise .illegalRequest s
  | some t =>
    if validHour t a.toNat then completeHour (hourToMode to24 t a.toNat) s
    else raise .invalidInput s

end Sys2Proof.Machine
end

