-- ==== Sys2Proof/Machine/TimeFields.lean ====
section
/-! DEFINITION. The time-field packer and unpacker (42_time_fields.md). A packer checks its range and writes every bit
that is no digit and no fold as 0; an unpacker clears exactly the named flag bits of its register and checks nothing
(D13, D14). -/

namespace Sys2Proof.Machine

/-- SEC.PACK (R150): F is folded into bit 7, ST. -/
def execSecPack (a : Byte) (st : Bool) (s : State) : Host.Outcome State Fault Refusal :=
  if 60 ≤ a.toNat then raise .invalidInput s
  else complete (zext16 (bcd a.toNat ||| fold st 7)) s

/-- SEC.UNPACK (R151): ST is masked out. -/
def execSecUnpack (a : Byte) (s : State) : Host.Outcome State Fault Refusal := complete (half (dec (a &&& 0x7F#8))) s

/-- MIN.PACK (R152). -/
def execMinPack (a : Byte) (s : State) : Host.Outcome State Fault Refusal :=
  if 60 ≤ a.toNat then raise .invalidInput s
  else complete (zext16 (bcd a.toNat)) s

/-- WKDAY.PACK (R155): F is folded into bit 3, VBATEN. -/
def execWkdayPack (a : Byte) (vbaten : Bool) (s : State) : Host.Outcome State Fault Refusal :=
  if a.toNat < 1 ∨ 7 < a.toNat then raise .invalidInput s
  else complete (zext16 (bcd a.toNat ||| fold vbaten 3)) s

/-- WKDAY.UNPACK (R156): OSCRUN, PWRFAIL and VBATEN are masked out. -/
def execWkdayUnpack (a : Byte) (s : State) : Host.Outcome State Fault Refusal :=
  complete (half (dec (a &&& 0xC7#8))) s

/-- DAY.PACK (R157). -/
def execDayPack (a : Byte) (s : State) : Host.Outcome State Fault Refusal :=
  if a.toNat < 1 ∨ 31 < a.toNat then raise .invalidInput s
  else complete (zext16 (bcd a.toNat)) s

/-- MONTH.PACK (R159). -/
def execMonthPack (a : Byte) (s : State) : Host.Outcome State Fault Refusal :=
  if a.toNat < 1 ∨ 12 < a.toNat then raise .invalidInput s
  else complete (zext16 (bcd a.toNat)) s

/-- MONTH.UNPACK (R160): LEAPYEAR is masked out. -/
def execMonthUnpack (a : Byte) (s : State) : Host.Outcome State Fault Refusal :=
  complete (half (dec (a &&& 0xDF#8))) s

/-- YEAR.PACK (R161): the check is on the whole 16-bit operand. -/
def execYearPack (y : Half) (s : State) : Host.Outcome State Fault Refusal :=
  if y.toNat < 2000 ∨ 2099 < y.toNat then raise .invalidInput s
  else complete (zext16 (bcd (y.toNat - 2000))) s

/-- YEAR.UNPACK (R162). -/
def execYearUnpack (a : Byte) (s : State) : Host.Outcome State Fault Refusal :=
  complete (half (2000 + dec a)) s

end Sys2Proof.Machine
end

