-- ==== Sys2Proof/Machine/Dispatch.lean ====
section
/-! DEFINITION. One arm per operation of the opcode map (R84, R98's last line). -/

namespace Sys2Proof.Machine

def exec (i : Instr) (s : State) : Host.Outcome State Fault Refusal :=
  match i with
  | .bcdEnc a => Sys2Proof.Machine.execBcdEnc a s
  | .bcdDec a => Sys2Proof.Machine.execBcdDec a s
  | .hourEnc tag a => Sys2Proof.Machine.execHourEnc tag a s
  | .hourDec a => Sys2Proof.Machine.execHourDec a s
  | .hourNorm to24 tag a => Sys2Proof.Machine.execHourNorm to24 tag a s
  | .secPack a st => Sys2Proof.Machine.execSecPack a st s
  | .secUnpack a => Sys2Proof.Machine.execSecUnpack a s
  | .minPack a => Sys2Proof.Machine.execMinPack a s
  | .wkdayPack a vbaten => Sys2Proof.Machine.execWkdayPack a vbaten s
  | .wkdayUnpack a => Sys2Proof.Machine.execWkdayUnpack a s
  | .dayPack a => Sys2Proof.Machine.execDayPack a s
  | .monthPack a => Sys2Proof.Machine.execMonthPack a s
  | .monthUnpack a => Sys2Proof.Machine.execMonthUnpack a s
  | .yearPack y => Sys2Proof.Machine.execYearPack y s
  | .yearUnpack a => Sys2Proof.Machine.execYearUnpack a s
  | .bitWr a mask v => Sys2Proof.Machine.execBitWr a mask v s
  | .bitTest a mask => Sys2Proof.Machine.execBitTest a mask s
  | .ctrlSqwfs a code => Sys2Proof.Machine.execCtrlSqwfs a code s
  | .trimPack a => Sys2Proof.Machine.execTrimPack a s
  | .almwkPack a code pol => Sys2Proof.Machine.execAlmwkPack a code pol s
  | .pfWkdayUnpack a => Sys2Proof.Machine.execPfWkdayUnpack a s
  | .pfMonthUnpack a => Sys2Proof.Machine.execPfMonthUnpack a s
  | .eewpPack level => Sys2Proof.Machine.execEewpPack level s

end Sys2Proof.Machine
end

