-- ==== Sys2Proof/Machine/Step.lean ====
section
/-! DEFINITION. One step is one evaluation: `rsp = Eval(req)` (R21, R69, R98). -/

namespace Sys2Proof.Machine

/-- Evaluates the request on the input port (R98). A request that spells no operation is an illegal request, whatever
the check that found it (R83, R85, R86, R87, R221). -/
def step (s : State) : Host.Outcome State Fault Refusal :=
  match decode s.req with
  | .ok i => exec i s
  | .error _ => raise .illegalRequest s

/-- The request word `w` of `nbits` bits, the bits above them 0, presented on the input port, where the next step reads
it. It stands for the requester, who presents every request (log 4). -/
def State.withFetchWord (s : State) (nbits w : Nat) : State := s.present (BitVec.ofNat 32 (w % 2 ^ nbits))

end Sys2Proof.Machine
end

