-- ==== Sys2Proof/Config.lean ====
section
/-! DEFINITION. What is fixed for this block. All of its parameters are fixed (R7) and the spec leaves no point open
(92_eei_decisions.md), so there is no free value here: no constant without a body. -/

namespace Sys2Proof.Config

/-- Opcodes assigned (R7, R80). -/
def opcodeCount : Nat := 23

/-- The engine state that enters the block as request operands (R23). The block neither stores nor updates it, so it
is no part of the machine's state: the functions of Machine/Requester.lean take it as an argument. -/
structure Context where
  /-- `is_enabled`: F of SEC.PACK. -/
  isEnabled : Bool
  /-- `is_battery_power_enabled`: F of WKDAY.PACK. -/
  isBatteryPowerEnabled : Bool
  /-- `is_running_in_24h_mode`: F of HOUR.NORM. -/
  isRunningIn24hMode : Bool
  /-- `alarm_output_pin_polarity`: F of ALMWK.PACK, true for High (R40). -/
  alarmPolarityHigh : Bool
  /-- `Config`, the cached CONTROL byte: `a` of BIT.WR and CTRL.SQWFS. -/
  config : Byte
deriving DecidableEq, Repr

/-- The values the engine state holds at construction (R241). -/
def initialContext : Context where
  isEnabled := false
  isBatteryPowerEnabled := false
  isRunningIn24hMode := false
  alarmPolarityHigh := false
  config := 0x80#8

end Sys2Proof.Config
end

