-- ==== Sys2Proof/Machine/RegisterMap.lean ====
section
/-! DEFINITION. The device's register map and bit-flag constants (R5's last row; R24 to R40, R61 to R63). They are
constants only: the registers are the device's, not state of the block (R6, R38), and no operation computes an address
(20_memory.md section 2). -/

namespace Sys2Proof.Machine

/-- The two byte-addressed spaces of the device (R61). -/
inductive Space
  | rtcc | eeprom
deriving DecidableEq, Repr

/-- Bus address of a space (R61). -/
def Space.busAddress : Space → BitVec 7
  | .rtcc => 0b1101111#7
  | .eeprom => 0b1010111#7

/-- The two alarms (R33). -/
inductive AlarmSel
  | alarm0 | alarm1
deriving DecidableEq, Repr

/-- ALM0SEC and ALM1SEC (R33). -/
def AlarmSel.base : AlarmSel → Byte
  | .alarm0 => 0x0A#8
  | .alarm1 => 0x11#8

/-- An alarm's six registers, in the order seconds through month (R33). -/
inductive AlarmReg
  | sec | min | hour | wkday | date | mth
deriving DecidableEq, Repr

/-- Offset from the alarm's base (R33). -/
def AlarmReg.offset : AlarmReg → Byte
  | .sec => 0#8
  | .min => 1#8
  | .hour => 2#8
  | .wkday => 3#8
  | .date => 4#8
  | .mth => 5#8

/-- The two power-fail records (R36). -/
inductive PowerFailSel
  | down | up
deriving DecidableEq, Repr

/-- PWRDNMIN and PWRUPMIN (R36). -/
def PowerFailSel.base : PowerFailSel → Byte
  | .down => 0x18#8
  | .up => 0x1C#8

/-- A power-fail record's four bytes (R36). -/
inductive PowerFailReg
  | min | hour | day | wkdayMonth
deriving DecidableEq, Repr

/-- Offset from the record's base (R36). -/
def PowerFailReg.offset : PowerFailReg → Byte
  | .min => 0#8
  | .hour => 1#8
  | .day => 2#8
  | .wkdayMonth => 3#8

/-- The device registers the spec names (R62, R63). -/
inductive DeviceReg
  | seconds | minutes | hours | weekday | day | month | year | control | osctrim | eeUnlock
  | alarm (sel : AlarmSel) (reg : AlarmReg)
  | powerFail (sel : PowerFailSel) (reg : PowerFailReg)
  | eeStatus
deriving DecidableEq, Repr

/-- A register's address in its space (R62, R63). -/
def DeviceReg.address : DeviceReg → Byte
  | .seconds => 0x00#8
  | .minutes => 0x01#8
  | .hours => 0x02#8
  | .weekday => 0x03#8
  | .day => 0x04#8
  | .month => 0x05#8
  | .year => 0x06#8
  | .control => 0x07#8
  | .osctrim => 0x08#8
  | .eeUnlock => 0x09#8
  | .alarm sel reg => sel.base + reg.offset
  | .powerFail sel reg => sel.base + reg.offset
  | .eeStatus => 0xFF#8

/-- A register's space (R62, R63). -/
def DeviceReg.space : DeviceReg → Space
  | .eeStatus => .eeprom
  | .seconds | .minutes | .hours | .weekday | .day | .month | .year | .control | .osctrim | .eeUnlock
  | .alarm _ _ | .powerFail _ _ => .rtcc

/-- A window of addresses, from the first to before the last. -/
structure Window where
  space : Space
  first : Nat
  stop : Nat
deriving DecidableEq, Repr

/-- General SRAM, [0x20, 0x60) (R62). -/
def sramWindow : Window := ⟨.rtcc, 0x20, 0x60⟩

/-- General EEPROM, [0x00, 0x80) (R63). -/
def eepromWindow : Window := ⟨.eeprom, 0x00, 0x80⟩

/-- Protected EEPROM, [0xF0, 0xF8) (R63). -/
def protectedEepromWindow : Window := ⟨.eeprom, 0xF0, 0xF8⟩

/-- The address lies in the window. -/
def Window.holds (w : Window) (a : Byte) : Bool := w.first ≤ a.toNat && a.toNat < w.stop

/-- The named flag bits of the device's registers (R26, R38). -/
inductive DeviceFlag
  | st | h24h12 | amPm | oscrun | pwrfail | vbaten | leapyear | almif | almpol
  | out | sqwen | alm1en | alm0en | extosc | crstrim
deriving DecidableEq, Repr

/-- The mask of a flag in its register's byte (R24, R26, R27, R29, R31, R34). -/
def DeviceFlag.mask : DeviceFlag → Byte
  | .st => 0x80#8
  | .h24h12 => 0x40#8
  | .amPm => 0x20#8
  | .oscrun => 0x20#8
  | .pwrfail => 0x10#8
  | .vbaten => 0x08#8
  | .leapyear => 0x20#8
  | .almif => 0x08#8
  | .almpol => 0x80#8
  | .out => 0x80#8
  | .sqwen => 0x40#8
  | .alm1en => 0x20#8
  | .alm0en => 0x10#8
  | .extosc => 0x08#8
  | .crstrim => 0x04#8

/-- The flag is a bit of the register (R24, R26, R27, R29, R31, R33, R34, R36). -/
def DeviceFlag.inReg : DeviceFlag → DeviceReg → Bool
  | .st, .seconds => true
  | .h24h12, .hours | .h24h12, .alarm _ .hour | .h24h12, .powerFail _ .hour => true
  | .amPm, .hours | .amPm, .alarm _ .hour | .amPm, .powerFail _ .hour => true
  | .oscrun, .weekday | .pwrfail, .weekday | .vbaten, .weekday => true
  | .leapyear, .month => true
  | .almif, .alarm _ .wkday | .almpol, .alarm _ .wkday => true
  | .out, .control | .sqwen, .control | .alm1en, .control | .alm0en, .control | .extosc, .control
  | .crstrim, .control => true
  | _, _ => false

/-- The output pin's level and the alarm output's polarity (R40): High is 1, Low is 0. -/
inductive PinLevel
  | low | high
deriving DecidableEq, Repr

/-- The bit of a level or polarity (R40). -/
def PinLevel.bit : PinLevel → Bool
  | .low => false
  | .high => true

end Sys2Proof.Machine
end

