-- ==== Sys2Proof/Machine/Assembler.lean ====
section
/-! DEFINITION. The assembler's operand forms (R95) and the pseudo-instructions (R96), as abstract syntax: the mnemonic
is an `Op` or a `Pseudo`, a number is a natural (DESIGN CHOICE, log 8). -/

namespace Sys2Proof.Machine

/-- One operand of a source line (R95): a number, or a tagged hour `T(h)`. -/
inductive AsmArg
  | num (n : Nat)
  | hour (t : HourTag) (h : Nat)
deriving DecidableEq, Repr

/-- A number that fits its field of `k` bits; one that does not is refused (R95). -/
def fit (k n : Nat) : Option (BitVec k) := if n < 2 ^ k then some (BitVec.ofNat k n) else none

/-- A one-bit operand: f, v or pol (R95). -/
def fitBit (n : Nat) : Option Bool := if n < 2 then some (n = 1) else none

/-- HOUR.NORM's target mode m, 24 or 12 (R95). -/
def fitMode (m : Nat) : Option Bool := if m = 24 then some true else if m = 12 then some false else none

/-- The fields of a source line's request, or none where the line is refused (R95). -/
def assembleFields (op : Op) (args : List AsmArg) : Option Fields :=
  match op.format, args with
  | .u8, [.num a] => (fit 8 a).map (byteFields op)
  | .u8f, [.num a, .num f] => do
    let a ← fit 8 a
    let f ← fitBit f
    some { byteFields op a with f := f }
  | .u16, [.num y] => do
    let y ← fit 16 y
    some { byteFields op 0#8 with arg := y }
  | .ht, [.hour t h] => do
    let a ← fit 8 h
    some { byteFields op a with tag := (tagField t).code }
  | .htf, [.num m, .hour t h] => do
    let f ← fitMode m
    let a ← fit 8 h
    some { byteFields op a with tag := (tagField t).code, f := f }
  | .bw, [.num a, .num mask, .num v] => do
    let a ← fit 8 a
    let b ← fit 8 mask
    let f ← fitBit v
    some { byteFields op a with b := b, f := f }
  | .bt, [.num a, .num mask] => do
    let a ← fit 8 a
    let b ← fit 8 mask
    some { byteFields op a with b := b }
  | .sq, [.num a, .num code] => do
    let a ← fit 8 a
    let c ← fit 2 code
    some { byteFields op a with b := c.setWidth 8 }
  | .aw, [.num wd, .num code, .num pol] => do
    let a ← fit 8 wd
    let c ← fit 3 code
    let f ← fitBit pol
    some { byteFields op a with b := c.setWidth 8, f := f }
  | .e2, [.num level] => do
    let c ← fit 2 level
    some { byteFields op 0#8 with arg := c.setWidth 16 }
  | _, _ => none

/-- The request word of a source line, or none where the line is refused (R95). -/
def assemble (op : Op) (args : List AsmArg) : Option Word := (assembleFields op args).map Fields.toWord

/-- The pseudo-instructions (R96). -/
inductive Pseudo
  /-- MIN.UNPACK b -/
  | minUnpack (b : Byte)
  /-- DAY.UNPACK b -/
  | dayUnpack (b : Byte)
  /-- HOURS.PACK T(h) -/
  | hoursPack (t : HourTag) (h : Byte)
  /-- HOURS.UNPACK b -/
  | hoursUnpack (b : Byte)
  /-- ALM.SEC.PACK s -/
  | almSecPack (s : Byte)
  /-- ALM.MIN.PACK m -/
  | almMinPack (m : Byte)
  /-- ALM.DAY.PACK d -/
  | almDayPack (d : Byte)
  /-- ALM.MONTH.PACK m -/
  | almMonthPack (m : Byte)
  /-- PF.MIN.UNPACK b -/
  | pfMinUnpack (b : Byte)
  /-- PF.HOUR.UNPACK b -/
  | pfHourUnpack (b : Byte)
  /-- PF.DAY.UNPACK b -/
  | pfDayUnpack (b : Byte)
  /-- OSC.START b -/
  | oscStart (b : Byte)
  /-- OSC.STOP b -/
  | oscStop (b : Byte)
  /-- OSC.RUNNING b -/
  | oscRunning (b : Byte)
  /-- VBAT.EN b -/
  | vbatEn (b : Byte)
  /-- VBAT.DIS b -/
  | vbatDis (b : Byte)
  /-- PWRFAIL.TEST b -/
  | pwrfailTest (b : Byte)
  /-- PWRFAIL.CLR b -/
  | pwrfailClr (b : Byte)
  /-- ALMIF.TEST b -/
  | almifTest (b : Byte)
  /-- ALMIF.CLR b -/
  | almifClr (b : Byte)
  /-- ALMPOL.WR b, p -/
  | almpolWr (b : Byte) (p : Bool)
  /-- CTRL.OUT c, v -/
  | ctrlOut (c : Byte) (v : Bool)
  /-- CTRL.SQWEN c, v -/
  | ctrlSqwen (c : Byte) (v : Bool)
  /-- CTRL.ALM1EN c, v -/
  | ctrlAlm1en (c : Byte) (v : Bool)
  /-- CTRL.ALM0EN c, v -/
  | ctrlAlm0en (c : Byte) (v : Bool)
  /-- CTRL.EXTOSC c, v -/
  | ctrlExtosc (c : Byte) (v : Bool)
  /-- CTRL.CRSTRIM c, v -/
  | ctrlCrstrim (c : Byte) (v : Bool)
deriving DecidableEq, Repr

/-- The one request a pseudo-instruction expands to (R96). -/
def Pseudo.expand : Pseudo → Instr
  | .minUnpack b => .bcdDec b
  | .dayUnpack b => .bcdDec b
  | .hoursPack t h => .hourEnc (tagField t) h
  | .hoursUnpack b => .hourDec b
  | .almSecPack s => .secPack s false
  | .almMinPack m => .minPack m
  | .almDayPack d => .dayPack d
  | .almMonthPack m => .monthPack m
  | .pfMinUnpack b => .bcdDec b
  | .pfHourUnpack b => .hourDec b
  | .pfDayUnpack b => .bcdDec b
  | .oscStart b => .bitWr b DeviceFlag.st.mask true
  | .oscStop b => .bitWr b DeviceFlag.st.mask false
  | .oscRunning b => .bitTest b DeviceFlag.oscrun.mask
  | .vbatEn b => .bitWr b DeviceFlag.vbaten.mask true
  | .vbatDis b => .bitWr b DeviceFlag.vbaten.mask false
  | .pwrfailTest b => .bitTest b DeviceFlag.pwrfail.mask
  | .pwrfailClr b => .bitWr b DeviceFlag.pwrfail.mask false
  | .almifTest b => .bitTest b DeviceFlag.almif.mask
  | .almifClr b => .bitWr b DeviceFlag.almif.mask false
  | .almpolWr b p => .bitWr b DeviceFlag.almpol.mask p
  | .ctrlOut c v => .bitWr c DeviceFlag.out.mask v
  | .ctrlSqwen c v => .bitWr c DeviceFlag.sqwen.mask v
  | .ctrlAlm1en c v => .bitWr c DeviceFlag.alm1en.mask v
  | .ctrlAlm0en c v => .bitWr c DeviceFlag.alm0en.mask v
  | .ctrlExtosc c v => .bitWr c DeviceFlag.extosc.mask v
  | .ctrlCrstrim c v => .bitWr c DeviceFlag.crstrim.mask v

end Sys2Proof.Machine
end

