-- ==== Sys2Proof/Machine/Requester.lean ====
section
/-! DEFINITION. The single requester's use of the block (R163, R164, R183, R201 to R203, R206, R246, R247): which
requests it makes for one source operation, and which register bytes it gets. Everything here goes through the block's
own step on request words. None of it is state of the block, and no bus traffic is made: a function answers the bytes
the requester would write (log 7). -/

namespace Sys2Proof.Machine

/-! ## One request -/

/-- `rsp = Eval(req)`: the response word the block produces for a request word (R21, R98). -/
def eval (req : Word) : Option Word :=
  match step (State.reset.present req) with
  | .next t => some t.rsp
  | .fault _ => none
  | .refused _ => none

/-- The response to an instruction's request where its STATUS is OK. The requester stops at a response that is not OK
(R99, R222), so otherwise there is none. -/
def ask (i : Instr) : Option Word :=
  match eval (encode i) with
  | some rsp => if rspStatus rsp = 0b00#2 then some rsp else none
  | none => none

/-- RESULT of the response, as a byte. -/
def askByte (i : Instr) : Option Byte := (ask i).map fun rsp => (rspResult rsp).setWidth 8

/-- RESULT of the response, all 16 bits. -/
def askHalf (i : Instr) : Option Half := (ask i).map rspResult

/-- RFLAG of the response. -/
def askFlag (i : Instr) : Option Bool := (ask i).map rspFlag

/-- A tagged hour (R12). -/
structure TaggedHour where
  tag : HourTag
  hour : Byte
deriving DecidableEq, Repr

/-- RTAG and RESULT of the response, as a tagged hour. -/
def askHour (i : Instr) : Option TaggedHour :=
  match ask i with
  | some rsp => (hourTagOfCode (rspTag rsp)).map fun t => ⟨t, (rspResult rsp).setWidth 8⟩
  | none => none

/-! ## Whole date and time (R65, R163, R164) -/

/-- The `DateTime` of R163. -/
structure DateTime where
  year : Half
  month : Byte
  day : Byte
  weekday : Byte
  hour : TaggedHour
  minute : Byte
  second : Byte
deriving DecidableEq, Repr

/-- The seven bytes of the registers 0x00 to 0x06 (R65). -/
structure TimeRegs where
  seconds : Byte
  minutes : Byte
  hours : Byte
  weekday : Byte
  day : Byte
  month : Byte
  year : Byte
deriving DecidableEq, Repr

/-- The seven requests of R163; none where a response is not OK, and then nothing is written. -/
def packDateTime (c : Config.Context) (d : DateTime) : Option TimeRegs := do
  let seconds ← askByte (.secPack d.second c.isEnabled)
  let minutes ← askByte (.minPack d.minute)
  let hours ← askByte (.hourEnc (tagField d.hour.tag) d.hour.hour)
  let weekday ← askByte (.wkdayPack d.weekday c.isBatteryPowerEnabled)
  let day ← askByte (.dayPack d.day)
  let month ← askByte (.monthPack d.month)
  let year ← askByte (.yearPack d.year)
  some ⟨seconds, minutes, hours, weekday, day, month, year⟩

/-- The write payload: the start address SECONDS, then the seven bytes in address order (R64, R65). -/
def TimeRegs.payload (r : TimeRegs) : List Byte :=
  [DeviceReg.seconds.address, r.seconds, r.minutes, r.hours, r.weekday, r.day, r.month, r.year]

/-- The seven requests of R164, one per byte in address order. -/
def unpackDateTime (r : TimeRegs) : Option DateTime := do
  let second ← askByte (.secUnpack r.seconds)
  let minute ← askByte (Pseudo.minUnpack r.minutes).expand
  let hour ← askHour (.hourDec r.hours)
  let weekday ← askByte (.wkdayUnpack r.weekday)
  let day ← askByte (Pseudo.dayUnpack r.day).expand
  let month ← askByte (.monthUnpack r.month)
  let year ← askHalf (.yearUnpack r.year)
  some ⟨year, month, day, weekday, hour, minute, second⟩

/-! ## Alarms (R66, R201, R202, R203) -/

/-- The `AlarmDateTime` of R201. -/
structure AlarmDateTime where
  month : Byte
  day : Byte
  weekday : Byte
  hour : TaggedHour
  minute : Byte
  second : Byte
deriving DecidableEq, Repr

/-- An alarm's six register bytes (R33, R66). -/
structure AlarmRegs where
  sec : Byte
  min : Byte
  hour : Byte
  wkday : Byte
  date : Byte
  mth : Byte
deriving DecidableEq, Repr

/-- The alarm hour byte: HOUR.ENC of the result of HOUR.NORM in the current mode (R202). -/
def alarmHour (c : Config.Context) (h : TaggedHour) : Option Byte := do
  let n ← askHour (.hourNorm c.isRunningIn24hMode (tagField h.tag) h.hour)
  askByte (.hourEnc (tagField n.tag) n.hour)

/-- The requests of R201; none where a response is not OK, and then nothing is written. -/
def packAlarm (c : Config.Context) (d : AlarmDateTime) (policy : MatchCode) (polarity : Bool) : Option AlarmRegs := do
  let sec ← askByte (Pseudo.almSecPack d.second).expand
  let min ← askByte (Pseudo.almMinPack d.minute).expand
  let hour ← alarmHour c d.hour
  let wkday ← askByte (.almwkPack d.weekday policy polarity)
  let date ← askByte (Pseudo.almDayPack d.day).expand
  let mth ← askByte (Pseudo.almMonthPack d.month).expand
  some ⟨sec, min, hour, wkday, date, mth⟩

/-- The alarm's write payload: the start address ALMxSEC, then the six bytes (R66). -/
def AlarmRegs.payload (r : AlarmRegs) (sel : AlarmSel) : List Byte :=
  [(DeviceReg.alarm sel .sec).address, r.sec, r.min, r.hour, r.wkday, r.date, r.mth]

/-- The rewrite of alarm 0's weekday register that goes before alarm 1's payload when the polarity differs from the
cached one (R203). `wkday0` is the byte read from ALM0WKDAY. -/
def polarityRewrite (c : Config.Context) (sel : AlarmSel) (polarity : Bool) (wkday0 : Byte) :
    Option (List (List Byte)) :=
  match sel with
  | .alarm0 => some []
  | .alarm1 =>
    if polarity = c.alarmPolarityHigh then some []
    else (askByte (Pseudo.almpolWr wkday0 polarity).expand).map fun w =>
      [[(DeviceReg.alarm .alarm0 .wkday).address, w]]

/-- The write payloads of `setAlarm`, in order; every request precedes any of them (R201, R203). -/
def alarmWrites (c : Config.Context) (sel : AlarmSel) (d : AlarmDateTime) (policy : MatchCode) (polarity : Bool)
    (wkday0 : Byte) : Option (List (List Byte)) := do
  let regs ← packAlarm c d policy polarity
  let first ← polarityRewrite c sel polarity wkday0
  some (first ++ [regs.payload sel])

/-! ## Power-fail log (R67, R206) -/

/-- The four bytes of a power-fail record (R36, R67). -/
structure PowerFailRegs where
  min : Byte
  hour : Byte
  day : Byte
  wkdayMonth : Byte
deriving DecidableEq, Repr

/-- What a record holds (R206): no year and no seconds. -/
structure PowerFailDateTime where
  month : Byte
  day : Byte
  weekday : Byte
  hour : TaggedHour
  minute : Byte
deriving DecidableEq, Repr

/-- The five requests of R206. -/
def unpackPowerFail (r : PowerFailRegs) : Option PowerFailDateTime := do
  let minute ← askByte (Pseudo.pfMinUnpack r.min).expand
  let hour ← askHour (Pseudo.pfHourUnpack r.hour).expand
  let day ← askByte (Pseudo.pfDayUnpack r.day).expand
  let weekday ← askByte (.pfWkdayUnpack r.wkdayMonth)
  let month ← askByte (.pfMonthUnpack r.wkdayMonth)
  some ⟨month, day, weekday, hour, minute⟩

/-! ## Context updates: only after the write succeeds (R23, R183, R203, R247) -/

/-- The CONTROL byte of a Config operation `op` on the cached Config (R183). -/
def configByte (c : Config.Context) (op : Byte → Instr) : Option Byte := askByte (op c.config)

/-- The engine state after the CONTROL write of `b`: a failed write leaves the cache as it was (R247). -/
def afterControlWrite (c : Config.Context) (b : Byte) (written : Bool) : Config.Context :=
  if written then { c with config := b } else c

/-- The engine state after an hours write that HOUR.ENC answered with RFLAG = `rflag` (R91, R132). -/
def afterHoursWrite (c : Config.Context) (rflag written : Bool) : Config.Context :=
  if written then { c with isRunningIn24hMode := rflag } else c

/-- The engine state after an alarm write with the given polarity (R203). -/
def afterAlarmWrite (c : Config.Context) (polarity written : Bool) : Config.Context :=
  if written then { c with alarmPolarityHigh := polarity } else c

/-- The two writes that go immediately before a write to the protected EEPROM window (R246), each the unlock
register's address and the byte. -/
def unlockWrites : List (List Byte) :=
  [[DeviceReg.eeUnlock.address, 0x55#8], [DeviceReg.eeUnlock.address, 0xAA#8]]

end Sys2Proof.Machine
end

