-- ==== Sys2Proof/Safety.lean ====
section
/-! DEFINITION. What counts as a good state of the block: the output port holds a response word of R88's form, and it is
the answer to the request on the input port (R21). -/

namespace Sys2Proof.Machine

/-- A response word as R88 to R90 allow it: STATUS is one of three codes, RTAG names a variant, bits 26:16 are 0, and
where STATUS is not OK the rest is 0. -/
def responseForm (rsp : Word) : Bool :=
  rspStatus rsp != 0b11#2 && rspTag rsp != 0b11#2 && rsp.extractLsb' 16 11 == 0#11
    && (rspStatus rsp == 0b00#2 || rsp.extractLsb' 0 30 == 0#30)

/-- The output port holds a response word. -/
abbrev State.formed (s : State) : Prop := responseForm s.rsp = true

/-- The output port holds the answer to the request on the input port: evaluating it again changes nothing (R21). -/
def State.settled (s : State) : Prop := step s = .next s

end Sys2Proof.Machine
end

