-- ==== Sys2Proof/Certificates/Slice0/Obligations.lean ====
section
/-! DEFINITION. The statements for the provers. `Sys2Proof.Spec` writes the spec's formulas again, on naturals and
without the model's own functions; the statements say that the model computes them. -/

namespace Sys2Proof.Spec

/-- `ok(result, rtag, rflag)` as a response word (R88), STATUS 0b00 (R89). -/
def okWord (result rtag rflag : Nat) : Word := BitVec.ofNat 32 (rtag * 2 ^ 28 + rflag * 2 ^ 27 + result)

/-- INVALID_INPUT's response word (R90). -/
def invalidInput : Word := 0x40000000#32

/-- ILLEGAL_REQUEST's response word (R90). -/
def illegalRequest : Word := 0x80000000#32

/-- bcd(n) (R11). -/
def bcd (n : Nat) : Nat := ((n / 10) * 16 + n % 10) % 256

/-- dec(b) of a byte b < 256 (R11). -/
def dec (b : Nat) : Nat := b / 16 * 10 + b % 16

/-- A bit as a number. -/
def bit (f : Bool) : Nat := if f then 1 else 0

/-- OP = req[31:27] (R10). -/
def opOf (req : Word) : Nat := req.toNat / 2 ^ 27 % 32

/-- TAG = req[26:25] (R10). -/
def tagOf (req : Word) : Nat := req.toNat / 2 ^ 25 % 4

/-- F = req[24] (R10). -/
def fOf (req : Word) : Nat := req.toNat / 2 ^ 24 % 2

/-- B = req[23:16] (R10). -/
def bOf (req : Word) : Nat := req.toNat / 2 ^ 16 % 256

/-- A = req[15:0] (R10). -/
def argOf (req : Word) : Nat := req.toNat % 65536

/-- a = req[7:0] (R10). -/
def aOf (req : Word) : Nat := req.toNat % 256

/-- TAG numbers (R12, R81). -/
def tagNumber : TagField → Nat
  | .h24 => 0
  | .am => 1
  | .pm => 2
  | .none => 3

/-- Match-policy numbers (R35). -/
def matchNumber : MatchCode → Nat
  | .seconds => 0
  | .minutes => 1
  | .hours => 2
  | .weekday => 3
  | .day => 4
  | .unused5 => 5
  | .unused6 => 6
  | .all => 7

/-- Frequency numbers (R39). -/
def freqNumber : SqwFreq → Nat
  | .f1 => 0
  | .f4096 => 1
  | .f8192 => 2
  | .f32768 => 3

/-- Protection-level numbers (R208). -/
def levelNumber : EepromLevel → Nat
  | .none => 0
  | .quarter => 1
  | .half => 2
  | .all => 3

/-- valid(t, h), the tag as a number (R130). -/
abbrev validHour (t h : Nat) : Prop := (t = 0 ∧ h ≤ 23) ∨ ((t = 1 ∨ t = 2) ∧ 1 ≤ h ∧ h ≤ 12)

/-- The HOURS byte of a valid hour (R131). -/
def hourByte (t h : Nat) : Nat := if t = 0 then bcd h else if t = 1 then 0x40 ||| bcd h else 0x60 ||| bcd h

/-- The tag and the hour of an HOURS byte (R133). -/
def hourOfByte (a : Nat) : Nat × Nat :=
  if a / 64 % 2 = 1 then (if a / 32 % 2 = 1 then 2 else 1, dec (a &&& 0x9F)) else (0, dec (a &&& 0xBF))

/-- The tag and the hour of a valid hour in the target mode (R135). -/
def hourNorm (f t a : Nat) : Nat × Nat :=
  if f = 1 then
    if t = 0 then (0, a)
    else if t = 1 ∧ a = 12 then (0, 0)
    else if t = 1 then (0, a)
    else if t = 2 ∧ a = 12 then (0, 12)
    else (0, a + 12)
  else
    if t = 1 ∨ t = 2 then (t, a)
    else if a = 0 then (1, 12)
    else if a ≤ 11 then (1, a)
    else if a = 12 then (2, 12)
    else (2, a - 12)

/-- The answer of an hour operation: RFLAG is 1 exactly for the H24 tag (R91). -/
def hourWord (th : Nat × Nat) : Word := okWord th.2 th.1 (if th.1 = 0 then 1 else 0)

/-- The OSCTRIM number of the signed byte whose pattern is a (R184): v = a - 256 for a ≥ 128, ~x = 255 - x. -/
def trim (a : Nat) : Nat := if 128 < a then 0x80 ||| (255 - (a - 1)) else a

/-- The opcode map's rows: mask and match (R82, R84). -/
def rows : List (Word × Word) :=
  [(0xFFFFFF00#32, 0x08000000#32), (0xFFFFFF00#32, 0x10000000#32), (0xF9FFFF00#32, 0x18000000#32),
   (0xFFFFFF00#32, 0x20000000#32), (0xF8FFFF00#32, 0x28000000#32), (0xFEFFFF00#32, 0x30000000#32),
   (0xFFFFFF00#32, 0x38000000#32), (0xFFFFFF00#32, 0x40000000#32), (0xFEFFFF00#32, 0x48000000#32),
   (0xFFFFFF00#32, 0x50000000#32), (0xFFFFFF00#32, 0x58000000#32), (0xFFFFFF00#32, 0x60000000#32)]
  ++
  [(0xFFFFFF00#32, 0x68000000#32), (0xFFFF0000#32, 0x70000000#32), (0xFFFFFF00#32, 0x78000000#32),
   (0xFE00FF00#32, 0x80000000#32), (0xFF00FF00#32, 0x88000000#32), (0xFFFCFF00#32, 0x90000000#32),
   (0xFFFFFF00#32, 0x98000000#32), (0xFEF8FF00#32, 0xA0000000#32), (0xFFFFFF00#32, 0xA8000000#32),
   (0xFFFFFF00#32, 0xB0000000#32), (0xFFFFFFFC#32, 0xB8000000#32)]

/-- The request spells no operation: no row of the opcode map fits it (R83, R85), or its tag names no variant (R86), or
its match code is unused (R87). -/
def illegal (req : Word) : Prop :=
  (∀ row ∈ rows, req &&& row.1 ≠ row.2)
    ∨ ((opOf req = 0x03 ∨ opOf req = 0x05) ∧ tagOf req = 3)
    ∨ (opOf req = 0x14 ∧ (bOf req % 8 = 5 ∨ bOf req % 8 = 6))

/-- An operand outside its documented range (R220), on the request's fields. -/
def outOfRange (req : Word) : Prop :=
  ((opOf req = 0x03 ∨ opOf req = 0x05) ∧ ¬ validHour (tagOf req) (aOf req))
    ∨ ((opOf req = 0x06 ∨ opOf req = 0x08) ∧ 60 ≤ aOf req)
    ∨ ((opOf req = 0x09 ∨ opOf req = 0x14) ∧ (aOf req < 1 ∨ 7 < aOf req))
    ∨ (opOf req = 0x0B ∧ (aOf req < 1 ∨ 31 < aOf req))
    ∨ (opOf req = 0x0C ∧ (aOf req < 1 ∨ 12 < aOf req))
    ∨ (opOf req = 0x0E ∧ (argOf req < 2000 ∨ 2099 < argOf req))

/-- An instruction's operand outside its documented range (R220). -/
def operandOutOfRange : Instr → Prop
  | .hourEnc tag a => ¬ validHour (tagNumber tag) a.toNat
  | .hourNorm _ tag a => ¬ validHour (tagNumber tag) a.toNat
  | .secPack a _ => 60 ≤ a.toNat
  | .minPack a => 60 ≤ a.toNat
  | .wkdayPack a _ => a.toNat < 1 ∨ 7 < a.toNat
  | .dayPack a => a.toNat < 1 ∨ 31 < a.toNat
  | .monthPack a => a.toNat < 1 ∨ 12 < a.toNat
  | .yearPack y => y.toNat < 2000 ∨ 2099 < y.toNat
  | .almwkPack a _ _ => a.toNat < 1 ∨ 7 < a.toNat
  | .bcdEnc _ | .bcdDec _ | .hourDec _ | .secUnpack _ | .wkdayUnpack _ | .monthUnpack _ | .yearUnpack _
  | .bitWr _ _ _ | .bitTest _ _ | .ctrlSqwfs _ _ | .trimPack _ | .pfWkdayUnpack _ | .pfMonthUnpack _
  | .eewpPack _ => False

/-- A tagged hour of the requester is valid (R130). -/
abbrev hourValid (h : Machine.TaggedHour) : Prop := validHour (tagNumber (Machine.tagField h.tag)) h.hour.toNat

/-- The fields that a whole date/time and an alarm both have, each in its range (R163, R201). -/
abbrev fieldsValid (month day weekday : Byte) (hour : Machine.TaggedHour) (minute second : Byte) : Prop :=
  1 ≤ month.toNat ∧ month.toNat ≤ 12 ∧ 1 ≤ day.toNat ∧ day.toNat ≤ 31 ∧ 1 ≤ weekday.toNat ∧ weekday.toNat ≤ 7
    ∧ hourValid hour ∧ minute.toNat ≤ 59 ∧ second.toNat ≤ 59

/-- Every field of the date/time is in its range (R163, R165). -/
abbrev dateTimeValid (d : Machine.DateTime) : Prop :=
  fieldsValid d.month d.day d.weekday d.hour d.minute d.second ∧ 2000 ≤ d.year.toNat ∧ d.year.toNat ≤ 2099

/-- Every field of the alarm is in its range (R201). -/
abbrev alarmValid (d : Machine.AlarmDateTime) : Prop :=
  fieldsValid d.month d.day d.weekday d.hour d.minute d.second

/-- A register byte of the given value. -/
def byte (n : Nat) : Byte := BitVec.ofNat 8 n

end Sys2Proof.Spec

open Sys2Proof Sys2Proof.Machine

/-! ## The operations: what each answers, on its operands and on any request word of its row

In each statement the first clauses are about `exec` on the instruction, the last about `step` on every request word
that its row of the opcode map (R84) fits, so that the encoding the rule gives is stated too. `{ s with rsp := … }` is
the frame: the input port is unchanged, and State has nothing else. -/

/-- BCD.ENC (R120). -/
def Obligations.BcdEncAnswersPackedBcd : Prop :=
  (∀ (a : Byte) (s : State), exec (.bcdEnc a) s = .next { s with rsp := Spec.okWord (Spec.bcd a.toNat) 0 0 })
  ∧ ∀ s : State, s.req &&& 0xFFFFFF00#32 = 0x08000000#32 →
      step s = .next { s with rsp := Spec.okWord (Spec.bcd (Spec.aOf s.req)) 0 0 }

/-- BCD.DEC (R122): every byte decodes, and the result is at most 165. -/
def Obligations.BcdDecAnswersDecimal : Prop :=
  (∀ (a : Byte) (s : State), exec (.bcdDec a) s = .next { s with rsp := Spec.okWord (Spec.dec a.toNat) 0 0 })
  ∧ (∀ a : Byte, Spec.dec a.toNat ≤ 165)
  ∧ ∀ s : State, s.req &&& 0xFFFFFF00#32 = 0x10000000#32 →
      step s = .next { s with rsp := Spec.okWord (Spec.dec (Spec.aOf s.req)) 0 0 }

/-- HOUR.ENC (R130, R131). The clause about `exec` with the tag `none` is the model's reading, not the rule's (DEDUCED,
log 5): R86's check is made before the operation rule runs (R98), so no step runs that term. -/
def Obligations.HourEncAnswersHoursByte : Prop :=
  (∀ (a : Byte) (s : State), a.toNat ≤ 23 →
      exec (.hourEnc .h24 a) s = .next { s with rsp := Spec.okWord (Spec.bcd a.toNat) 0 1 })
  ∧ (∀ (a : Byte) (s : State), 1 ≤ a.toNat → a.toNat ≤ 12 →
      exec (.hourEnc .am a) s = .next { s with rsp := Spec.okWord (0x40 ||| Spec.bcd a.toNat) 0 0 })
  ∧ (∀ (a : Byte) (s : State), 1 ≤ a.toNat → a.toNat ≤ 12 →
      exec (.hourEnc .pm a) s = .next { s with rsp := Spec.okWord (0x60 ||| Spec.bcd a.toNat) 0 0 })
  ∧ (∀ (tag : TagField) (a : Byte) (s : State), tag ≠ .none → ¬ Spec.validHour (Spec.tagNumber tag) a.toNat →
      exec (.hourEnc tag a) s = .next { s with rsp := Spec.invalidInput })
  ∧ (∀ (a : Byte) (s : State), exec (.hourEnc .none a) s = .next { s with rsp := Spec.illegalRequest })
  ∧ ∀ s : State, s.req &&& 0xF9FFFF00#32 = 0x18000000#32 →
      step s = .next { s with rsp := (
        if Spec.tagOf s.req = 3 then Spec.illegalRequest
        else if Spec.validHour (Spec.tagOf s.req) (Spec.aOf s.req) then
          Spec.okWord (Spec.hourByte (Spec.tagOf s.req) (Spec.aOf s.req)) 0 (if Spec.tagOf s.req = 0 then 1 else 0)
        else Spec.invalidInput) }

/-- HOUR.DEC (R133). -/
def Obligations.HourDecAnswersTaggedHour : Prop :=
  (∀ (a : Byte) (s : State),
      exec (.hourDec a) s = .next { s with rsp := Spec.hourWord (Spec.hourOfByte a.toNat) })
  ∧ ∀ s : State, s.req &&& 0xFFFFFF00#32 = 0x20000000#32 →
      step s = .next { s with rsp := Spec.hourWord (Spec.hourOfByte (Spec.aOf s.req)) }

/-- HOUR.NORM (R135): the input is validated in every case, and every result is valid. The clause about `exec` with the
tag `none` is the model's reading, not the rule's (DEDUCED, log 5): R86's check is made before the operation rule runs
(R98), so no step runs that term. -/
def Obligations.HourNormAnswersHourInMode : Prop :=
  (∀ (to24 : Bool) (tag : TagField) (a : Byte) (s : State), Spec.validHour (Spec.tagNumber tag) a.toNat →
      exec (.hourNorm to24 tag a) s =
        .next { s with rsp := Spec.hourWord (Spec.hourNorm (Spec.bit to24) (Spec.tagNumber tag) a.toNat) }
      ∧ Spec.validHour (Spec.hourNorm (Spec.bit to24) (Spec.tagNumber tag) a.toNat).1
          (Spec.hourNorm (Spec.bit to24) (Spec.tagNumber tag) a.toNat).2)
  ∧ (∀ (to24 : Bool) (tag : TagField) (a : Byte) (s : State), tag ≠ .none →
      ¬ Spec.validHour (Spec.tagNumber tag) a.toNat →
      exec (.hourNorm to24 tag a) s = .next { s with rsp := Spec.invalidInput })
  ∧ (∀ (to24 : Bool) (a : Byte) (s : State),
      exec (.hourNorm to24 .none a) s = .next { s with rsp := Spec.illegalRequest })
  ∧ ∀ s : State, s.req &&& 0xF8FFFF00#32 = 0x28000000#32 →
      step s = .next { s with rsp := (
        if Spec.tagOf s.req = 3 then Spec.illegalRequest
        else if Spec.validHour (Spec.tagOf s.req) (Spec.aOf s.req) then
          Spec.hourWord (Spec.hourNorm (Spec.fOf s.req) (Spec.tagOf s.req) (Spec.aOf s.req))
        else Spec.invalidInput) }

/-- SEC.PACK (R150). -/
def Obligations.SecPackAnswersSecondsByte : Prop :=
  (∀ (a : Byte) (st : Bool) (s : State), a.toNat < 60 →
      exec (.secPack a st) s = .next { s with rsp := Spec.okWord (Spec.bcd a.toNat ||| Spec.bit st <<< 7) 0 0 })
  ∧ (∀ (a : Byte) (st : Bool) (s : State), 60 ≤ a.toNat →
      exec (.secPack a st) s = .next { s with rsp := Spec.invalidInput })
  ∧ ∀ s : State, s.req &&& 0xFEFFFF00#32 = 0x30000000#32 →
      step s = .next { s with rsp := (
        if 60 ≤ Spec.aOf s.req then Spec.invalidInput
        else Spec.okWord (Spec.bcd (Spec.aOf s.req) ||| Spec.fOf s.req <<< 7) 0 0) }

/-- SEC.UNPACK (R151). -/
def Obligations.SecUnpackAnswersSeconds : Prop :=
  (∀ (a : Byte) (s : State),
      exec (.secUnpack a) s = .next { s with rsp := Spec.okWord (Spec.dec (a.toNat &&& 0x7F)) 0 0 })
  ∧ ∀ s : State, s.req &&& 0xFFFFFF00#32 = 0x38000000#32 →
      step s = .next { s with rsp := Spec.okWord (Spec.dec (Spec.aOf s.req &&& 0x7F)) 0 0 }

/-- MIN.PACK (R152). -/
def Obligations.MinPackAnswersMinutesByte : Prop :=
  (∀ (a : Byte) (s : State), a.toNat < 60 →
      exec (.minPack a) s = .next { s with rsp := Spec.okWord (Spec.bcd a.toNat) 0 0 })
  ∧ (∀ (a : Byte) (s : State), 60 ≤ a.toNat → exec (.minPack a) s = .next { s with rsp := Spec.invalidInput })
  ∧ ∀ s : State, s.req &&& 0xFFFFFF00#32 = 0x40000000#32 →
      step s = .next { s with rsp := (
        if 60 ≤ Spec.aOf s.req then Spec.invalidInput else Spec.okWord (Spec.bcd (Spec.aOf s.req)) 0 0) }

/-- WKDAY.PACK (R155). -/
def Obligations.WkdayPackAnswersWeekdayByte : Prop :=
  (∀ (a : Byte) (v : Bool) (s : State), 1 ≤ a.toNat → a.toNat ≤ 7 →
      exec (.wkdayPack a v) s = .next { s with rsp := Spec.okWord (Spec.bcd a.toNat ||| Spec.bit v <<< 3) 0 0 })
  ∧ (∀ (a : Byte) (v : Bool) (s : State), a.toNat < 1 ∨ 7 < a.toNat →
      exec (.wkdayPack a v) s = .next { s with rsp := Spec.invalidInput })
  ∧ ∀ s : State, s.req &&& 0xFEFFFF00#32 = 0x48000000#32 →
      step s = .next { s with rsp := (
        if Spec.aOf s.req < 1 ∨ 7 < Spec.aOf s.req then Spec.invalidInput
        else Spec.okWord (Spec.bcd (Spec.aOf s.req) ||| Spec.fOf s.req <<< 3) 0 0) }

/-- WKDAY.UNPACK (R156). -/
def Obligations.WkdayUnpackAnswersWeekday : Prop :=
  (∀ (a : Byte) (s : State),
      exec (.wkdayUnpack a) s = .next { s with rsp := Spec.okWord (Spec.dec (a.toNat &&& 0xC7)) 0 0 })
  ∧ ∀ s : State, s.req &&& 0xFFFFFF00#32 = 0x50000000#32 →
      step s = .next { s with rsp := Spec.okWord (Spec.dec (Spec.aOf s.req &&& 0xC7)) 0 0 }

/-- DAY.PACK (R157). -/
def Obligations.DayPackAnswersDayByte : Prop :=
  (∀ (a : Byte) (s : State), 1 ≤ a.toNat → a.toNat ≤ 31 →
      exec (.dayPack a) s = .next { s with rsp := Spec.okWord (Spec.bcd a.toNat) 0 0 })
  ∧ (∀ (a : Byte) (s : State), a.toNat < 1 ∨ 31 < a.toNat →
      exec (.dayPack a) s = .next { s with rsp := Spec.invalidInput })
  ∧ ∀ s : State, s.req &&& 0xFFFFFF00#32 = 0x58000000#32 →
      step s = .next { s with rsp := (
        if Spec.aOf s.req < 1 ∨ 31 < Spec.aOf s.req then Spec.invalidInput
        else Spec.okWord (Spec.bcd (Spec.aOf s.req)) 0 0) }

/-- MONTH.PACK (R159): LEAPYEAR (0x20) is never written 1. -/
def Obligations.MonthPackAnswersMonthByte : Prop :=
  (∀ (a : Byte) (s : State), 1 ≤ a.toNat → a.toNat ≤ 12 →
      exec (.monthPack a) s = .next { s with rsp := Spec.okWord (Spec.bcd a.toNat) 0 0 }
      ∧ Spec.bcd a.toNat &&& 0x20 = 0)
  ∧ (∀ (a : Byte) (s : State), a.toNat < 1 ∨ 12 < a.toNat →
      exec (.monthPack a) s = .next { s with rsp := Spec.invalidInput })
  ∧ ∀ s : State, s.req &&& 0xFFFFFF00#32 = 0x60000000#32 →
      step s = .next { s with rsp := (
        if Spec.aOf s.req < 1 ∨ 12 < Spec.aOf s.req then Spec.invalidInput
        else Spec.okWord (Spec.bcd (Spec.aOf s.req)) 0 0) }

/-- MONTH.UNPACK (R160). -/
def Obligations.MonthUnpackAnswersMonth : Prop :=
  (∀ (a : Byte) (s : State),
      exec (.monthUnpack a) s = .next { s with rsp := Spec.okWord (Spec.dec (a.toNat &&& 0xDF)) 0 0 })
  ∧ ∀ s : State, s.req &&& 0xFFFFFF00#32 = 0x68000000#32 →
      step s = .next { s with rsp := Spec.okWord (Spec.dec (Spec.aOf s.req &&& 0xDF)) 0 0 }

/-- YEAR.PACK (R161). -/
def Obligations.YearPackAnswersYearByte : Prop :=
  (∀ (y : Half) (s : State), 2000 ≤ y.toNat → y.toNat ≤ 2099 →
      exec (.yearPack y) s = .next { s with rsp := Spec.okWord (Spec.bcd (y.toNat - 2000)) 0 0 })
  ∧ (∀ (y : Half) (s : State), y.toNat < 2000 ∨ 2099 < y.toNat →
      exec (.yearPack y) s = .next { s with rsp := Spec.invalidInput })
  ∧ ∀ s : State, s.req &&& 0xFFFF0000#32 = 0x70000000#32 →
      step s = .next { s with rsp := (
        if Spec.argOf s.req < 2000 ∨ 2099 < Spec.argOf s.req then Spec.invalidInput
        else Spec.okWord (Spec.bcd (Spec.argOf s.req - 2000)) 0 0) }

/-- YEAR.UNPACK (R162): the result is between 2000 and 2165. -/
def Obligations.YearUnpackAnswersYear : Prop :=
  (∀ (a : Byte) (s : State),
      exec (.yearUnpack a) s = .next { s with rsp := Spec.okWord (2000 + Spec.dec a.toNat) 0 0 })
  ∧ (∀ a : Byte, 2000 ≤ 2000 + Spec.dec a.toNat ∧ 2000 + Spec.dec a.toNat ≤ 2165)
  ∧ ∀ s : State, s.req &&& 0xFFFFFF00#32 = 0x78000000#32 →
      step s = .next { s with rsp := Spec.okWord (2000 + Spec.dec (Spec.aOf s.req)) 0 0 }

/-- BIT.WR (R180): `~B` is 255 - B on 8 bits (R9). -/
def Obligations.BitWrAnswersMaskedWrite : Prop :=
  (∀ (a mask : Byte) (s : State),
      exec (.bitWr a mask true) s = .next { s with rsp := Spec.okWord (a.toNat ||| mask.toNat) 0 0 })
  ∧ (∀ (a mask : Byte) (s : State),
      exec (.bitWr a mask false) s = .next { s with rsp := Spec.okWord (a.toNat &&& (255 - mask.toNat)) 0 0 })
  ∧ ∀ s : State, s.req &&& 0xFE00FF00#32 = 0x80000000#32 →
      step s = .next { s with rsp := (
        if Spec.fOf s.req = 1 then Spec.okWord (Spec.aOf s.req ||| Spec.bOf s.req) 0 0
        else Spec.okWord (Spec.aOf s.req &&& (255 - Spec.bOf s.req)) 0 0) }

/-- BIT.TEST (R181). -/
def Obligations.BitTestAnswersFlag : Prop :=
  (∀ (a mask : Byte) (s : State), exec (.bitTest a mask) s =
      .next { s with rsp := Spec.okWord 0 0 (if a.toNat &&& mask.toNat = 0 then 0 else 1) })
  ∧ ∀ s : State, s.req &&& 0xFF00FF00#32 = 0x88000000#32 →
      step s = .next { s with rsp := (
        Spec.okWord 0 0 (if Spec.aOf s.req &&& Spec.bOf s.req = 0 then 0 else 1)) }

/-- CTRL.SQWFS (R182). -/
def Obligations.CtrlSqwfsInsertsFrequencyCode : Prop :=
  (∀ (a : Byte) (code : SqwFreq) (s : State), exec (.ctrlSqwfs a code) s =
      .next { s with rsp := Spec.okWord ((a.toNat &&& 0xFC) ||| Spec.freqNumber code) 0 0 })
  ∧ (∀ s : State, s.req &&& 0xFFFCFF00#32 = 0x90000000#32 →
      step s = .next { s with rsp := Spec.okWord ((Spec.aOf s.req &&& 0xFC) ||| Spec.bOf s.req % 4) 0 0 })
  ∧ ∀ s : State, Spec.opOf s.req = 0x12 → 3 < Spec.bOf s.req → step s = .next { s with rsp := Spec.illegalRequest }

/-- TRIM.PACK (R184). -/
def Obligations.TrimPackAnswersTrimByte : Prop :=
  (∀ (a : Byte) (s : State), exec (.trimPack a) s = .next { s with rsp := Spec.okWord (Spec.trim a.toNat) 0 0 })
  ∧ ∀ s : State, s.req &&& 0xFFFFFF00#32 = 0x98000000#32 →
      step s = .next { s with rsp := Spec.okWord (Spec.trim (Spec.aOf s.req)) 0 0 }

/-- ALMWK.PACK (R200). The clause about `exec` with the match codes 5 and 6 is the model's reading, not the rule's
(DEDUCED, log 5): R87's check is made before the operation rule runs (R98), so no step runs those terms. -/
def Obligations.AlmwkPackAnswersAlarmWeekdayByte : Prop :=
  (∀ (a : Byte) (code : MatchCode) (pol : Bool) (s : State), code ≠ .unused5 → code ≠ .unused6 →
      1 ≤ a.toNat → a.toNat ≤ 7 →
      exec (.almwkPack a code pol) s = .next { s with rsp := (
        Spec.okWord (Spec.bcd a.toNat ||| Spec.matchNumber code <<< 4 ||| Spec.bit pol <<< 7) 0 0) })
  ∧ (∀ (a : Byte) (code : MatchCode) (pol : Bool) (s : State), code ≠ .unused5 → code ≠ .unused6 →
      (a.toNat < 1 ∨ 7 < a.toNat) → exec (.almwkPack a code pol) s = .next { s with rsp := Spec.invalidInput })
  ∧ (∀ (a : Byte) (code : MatchCode) (pol : Bool) (s : State), (code = .unused5 ∨ code = .unused6) →
      exec (.almwkPack a code pol) s = .next { s with rsp := Spec.illegalRequest })
  ∧ (∀ s : State, s.req &&& 0xFEF8FF00#32 = 0xA0000000#32 →
      step s = .next { s with rsp := (
        if Spec.bOf s.req % 8 = 5 ∨ Spec.bOf s.req % 8 = 6 then Spec.illegalRequest
        else if Spec.aOf s.req < 1 ∨ 7 < Spec.aOf s.req then Spec.invalidInput
        else Spec.okWord
          (Spec.bcd (Spec.aOf s.req) ||| (Spec.bOf s.req % 8) <<< 4 ||| Spec.fOf s.req <<< 7) 0 0) })
  ∧ ∀ s : State, Spec.opOf s.req = 0x14 → 7 < Spec.bOf s.req → step s = .next { s with rsp := Spec.illegalRequest }

/-- PF.WKDAY.UNPACK (R204). -/
def Obligations.PfWkdayUnpackAnswersTopBits : Prop :=
  (∀ (a : Byte) (s : State), exec (.pfWkdayUnpack a) s = .next { s with rsp := Spec.okWord (a.toNat / 32) 0 0 })
  ∧ ∀ s : State, s.req &&& 0xFFFFFF00#32 = 0xA8000000#32 →
      step s = .next { s with rsp := Spec.okWord (Spec.aOf s.req / 32) 0 0 }

/-- PF.MONTH.UNPACK (R205). -/
def Obligations.PfMonthUnpackAnswersMonth : Prop :=
  (∀ (a : Byte) (s : State),
      exec (.pfMonthUnpack a) s = .next { s with rsp := Spec.okWord (Spec.dec (a.toNat &&& 0x1F)) 0 0 })
  ∧ ∀ s : State, s.req &&& 0xFFFFFF00#32 = 0xB0000000#32 →
      step s = .next { s with rsp := Spec.okWord (Spec.dec (Spec.aOf s.req &&& 0x1F)) 0 0 }

/-- EEWP.PACK (R208). -/
def Obligations.EewpPackAnswersProtectionByte : Prop :=
  (∀ (level : EepromLevel) (s : State),
      exec (.eewpPack level) s = .next { s with rsp := Spec.okWord (Spec.levelNumber level <<< 2) 0 0 })
  ∧ (∀ s : State, s.req &&& 0xFFFFFFFC#32 = 0xB8000000#32 →
      step s = .next { s with rsp := Spec.okWord ((Spec.argOf s.req % 4) <<< 2) 0 0 })
  ∧ ∀ s : State, Spec.opOf s.req = 0x17 → 3 < Spec.argOf s.req → step s = .next { s with rsp := Spec.illegalRequest }

/-! ## The machine: decoding, exceptions, the response, dependence on the request alone -/

/-- The step at a request word that decodes to an instruction is `exec` of that instruction: nothing is added around it
(R98). -/
def Obligations.StepRunsDecodedInstruction : Prop :=
  ∀ (s : State) (i : Instr), decode s.req = .ok i → step s = exec i s

/-- Decoding the request word of a well-formed instruction gives the instruction back, for every operand. -/
def Obligations.DecodeOfEncodeIsInstruction : Prop :=
  ∀ i : Instr, i.wf = true → decode (encode i) = .ok i

/-- A request word decodes only to a well-formed instruction whose request word it is: no two words spell one
instruction, and no bit is ignored (R83). -/
def Obligations.DecodedWordIsEncoding : Prop :=
  ∀ (w : Word) (i : Instr), decode w = .ok i → i.wf = true ∧ encode i = w

/-- The opcode map's masks and match words, in its order (R82, R84). -/
def Obligations.OpcodeMapHasRowsOfSpec : Prop :=
  [Op.bcdEnc, .bcdDec, .hourEnc, .hourDec, .hourNorm, .secPack, .secUnpack, .minPack, .wkdayPack, .wkdayUnpack,
    .dayPack, .monthPack, .monthUnpack, .yearPack, .yearUnpack, .bitWr, .bitTest, .ctrlSqwfs, .trimPack, .almwkPack,
    .pfWkdayUnpack, .pfMonthUnpack, .eewpPack].map (fun op => (op.format.mask, op.matchWord)) = Spec.rows

/-- The encoding examples of R97: the request word, and the response word the step produces from reset. -/
def Obligations.EncodingExamplesAnswerAsSpec : Prop :=
  encode (.bcdEnc 42#8) = 0x0800002A#32 ∧ eval 0x0800002A#32 = some 0x00000042#32
  ∧ encode (.hourEnc .pm 11#8) = 0x1C00000B#32 ∧ eval 0x1C00000B#32 = some 0x00000071#32
  ∧ encode (.hourNorm false .h24 23#8) = 0x28000017#32 ∧ eval 0x28000017#32 = some 0x2000000B#32
  ∧ encode (.secPack 58#8 true) = 0x3100003A#32 ∧ eval 0x3100003A#32 = some 0x000000D8#32
  ∧ encode (.yearPack 2018#16) = 0x700007E2#32 ∧ eval 0x700007E2#32 = some 0x00000018#32
  ∧ encode (Pseudo.oscStart 0x00#8).expand = 0x81800000#32 ∧ encode (.bitWr 0x00#8 0x80#8 true) = 0x81800000#32
  ∧ eval 0x81800000#32 = some 0x00000080#32
  ∧ encode (.almwkPack 3#8 .all true) = 0xA1070003#32 ∧ eval 0xA1070003#32 = some 0x000000F3#32
  ∧ encode (.eewpPack .half) = 0xB8000002#32 ∧ eval 0xB8000002#32 = some 0x00000008#32

/-- Every request ends in exactly one of three outcomes, in the order of the checks: ILLEGAL_REQUEST for a request that
spells no operation, else INVALID_INPUT for an operand out of its range, else OK; and an error response carries nothing
else (R83, R85, R86, R87, R90, R220, R221). -/
def Obligations.StatusFollowsCheckOrder : Prop :=
  ∀ s : State,
    (Spec.illegal s.req → step s = .next { s with rsp := Spec.illegalRequest })
    ∧ (¬ Spec.illegal s.req → Spec.outOfRange s.req → step s = .next { s with rsp := Spec.invalidInput })
    ∧ (¬ Spec.illegal s.req → ¬ Spec.outOfRange s.req →
        ∃ w : Word, step s = .next { s with rsp := w } ∧ w.toNat < 2 ^ 30)

/-- The same for the instruction: an ill-formed one answers ILLEGAL_REQUEST, which is the model's reading (DEDUCED, log 5:
no step runs such a term); a well-formed one answers INVALID_INPUT exactly when its operand is out of its range, and
never ILLEGAL_REQUEST. -/
def Obligations.ExecRaisesExactlyOutOfRange : Prop :=
  (∀ (i : Instr) (s : State), i.wf = false → exec i s = .next { s with rsp := Spec.illegalRequest })
  ∧ (∀ (i : Instr) (s : State), i.wf = true → Spec.operandOutOfRange i →
      exec i s = .next { s with rsp := Spec.invalidInput })
  ∧ ∀ (i : Instr) (s : State), i.wf = true → ¬ Spec.operandOutOfRange i →
      ∃ w : Word, exec i s = .next { s with rsp := w } ∧ w.toNat < 2 ^ 30

/-- An evaluation changes nothing but the response, and never stops the machine: for every instruction, well-formed or
not, and for every request word (R20, R222, R225). -/
def Obligations.EvaluationWritesResponseOnly : Prop :=
  (∀ (i : Instr) (s : State), ∃ w : Word, exec i s = .next { s with rsp := w })
  ∧ ∀ s : State, ∃ w : Word, step s = .next { s with rsp := w }

/-- The response depends on the request alone: not on what the output port held, not on any earlier request, failed or
not, and not on a reset (R20, R21, R71, R226, R240, R244). -/
def Obligations.ResponseDependsOnRequestAlone : Prop :=
  (∀ (s : State) (req : Word), step (s.present req) = step (State.reset.present req))
  ∧ ∀ (s t : State) (first second : Word), step (s.present first) = .next t →
      step (t.present second) = step (s.present second)

/-- From every state, and so from every state that is formed and settled, a step gives a state that is formed and
settled: its response word has R88's form, and evaluating the same request again changes nothing (R21). -/
def Obligations.StepGivesFormedSettledState : Prop :=
  ∀ s t : State, step s = .next t → t.formed ∧ t.settled ∧ t.req = s.req

/-- The state after reset is formed and settled. The port values there are the model's choice (logs 2 and 3): the spec
has no reset (R240). -/
def Obligations.ResetStateIsFormedAndSettled : Prop :=
  State.reset.formed ∧ State.reset.settled ∧ State.reset.req = 0x00000000#32 ∧ State.reset.rsp = Spec.illegalRequest

/-- The response layout (R88): bits 26:16 are 0, RESULT fits a byte for every operation but YEAR.UNPACK, and no RESULT
exceeds 2165 (R7). -/
def Obligations.ResultFitsItsField : Prop :=
  ∀ s t : State, step s = .next t →
    t.rsp.toNat / 2 ^ 16 % 2 ^ 11 = 0 ∧ t.rsp.toNat % 2 ^ 16 ≤ 2165
      ∧ (Spec.opOf s.req ≠ 0x0F → t.rsp.toNat % 2 ^ 16 < 256)

/-- RTAG and RFLAG (R91): of an OK response, RFLAG is 1 exactly for a 24-hour result of the hour operations and is
BIT.TEST's test result; RTAG is the result's tag for HOUR.DEC and HOUR.NORM; both are 0 otherwise. -/
def Obligations.TagAndFlagOfResponse : Prop :=
  ∀ s t : State, step s = .next t → rspStatus t.rsp = 0b00#2 →
    (Spec.opOf s.req = 0x03 → rspTag t.rsp = 0#2 ∧ rspFlag t.rsp = decide (Spec.tagOf s.req = 0))
    ∧ (Spec.opOf s.req = 0x04 →
        (rspTag t.rsp).toNat = (Spec.hourOfByte (Spec.aOf s.req)).1
          ∧ rspFlag t.rsp = decide ((Spec.hourOfByte (Spec.aOf s.req)).1 = 0))
    ∧ (Spec.opOf s.req = 0x05 →
        (rspTag t.rsp).toNat = (Spec.hourNorm (Spec.fOf s.req) (Spec.tagOf s.req) (Spec.aOf s.req)).1
          ∧ rspFlag t.rsp = decide (Spec.fOf s.req = 1))
    ∧ (Spec.opOf s.req = 0x11 →
        rspTag t.rsp = 0#2 ∧ rspFlag t.rsp = decide (Spec.aOf s.req &&& Spec.bOf s.req ≠ 0))
    ∧ (Spec.opOf s.req ≠ 0x03 → Spec.opOf s.req ≠ 0x04 → Spec.opOf s.req ≠ 0x05 → Spec.opOf s.req ≠ 0x11 →
        rspTag t.rsp = 0#2 ∧ rspFlag t.rsp = false)

/-! ## Laws of the codecs, on the block's own answers -/

/-- BCD.ENC's two lanes (R121). -/
def Obligations.BcdEncLanes : Prop :=
  ∀ a : Byte, ∃ b : Byte, askByte (.bcdEnc a) = some b
    ∧ b.toNat % 16 = a.toNat % 10 ∧ b.toNat / 16 = a.toNat / 10 % 16
    ∧ (a.toNat ≤ 99 → b.toNat / 16 = a.toNat / 10 ∧ b.toNat / 16 ≤ 9)
    ∧ (100 ≤ a.toNat → a.toNat ≤ 159 → b.toNat / 16 = a.toNat / 10 ∧ 10 ≤ b.toNat / 16)

/-- The four laws of the BCD codec (R124). -/
def Obligations.BcdCodecLaws : Prop :=
  (∀ n : Byte, n.toNat ≤ 99 → ∃ b : Byte, askByte (.bcdEnc n) = some b ∧ askByte (.bcdDec b) = some n)
  ∧ (∀ b : Byte, ∃ n : Byte, askByte (.bcdDec b) = some n
      ∧ (askByte (.bcdEnc n) = some b ↔ b.toNat % 16 ≤ 9)
      ∧ (10 ≤ b.toNat / 16 → b.toNat % 16 ≤ 9 → 100 ≤ n.toNat ∧ n.toNat ≤ 159)
      ∧ n.toNat ≤ 165 ∧ (b.toNat / 16 ≤ 9 → b.toNat % 16 ≤ 9 → n.toNat ≤ 99))
  ∧ (∀ m n : Byte, m.toNat ≤ 99 → n.toNat ≤ 99 → askByte (.bcdEnc m) = askByte (.bcdEnc n) → m = n)
  ∧ ∀ b : Byte, (∃ n : Byte, n.toNat ≤ 99 ∧ askByte (.bcdEnc n) = some b) ↔ (b.toNat / 16 ≤ 9 ∧ b.toNat % 16 ≤ 9)

/-- HOUR.DEC answers every byte, with the largest values 125 and 105 (R134). -/
def Obligations.HourDecIsTotalAndBounded : Prop :=
  (∀ a : Byte, ∃ th : TaggedHour, askHour (.hourDec a) = some th
    ∧ (th.tag = .h24 → th.hour.toNat ≤ 125) ∧ (th.tag ≠ .h24 → th.hour.toNat ≤ 105))
  ∧ askHour (.hourDec 0xBF#8) = some ⟨.h24, 125#8⟩ ∧ askHour (.hourDec 0xDF#8) = some ⟨.am, 105#8⟩
  ∧ askHour (.hourDec 0xFF#8) = some ⟨.pm, 105#8⟩ ∧ askHour (.hourDec 0x5F#8) = some ⟨.am, 25#8⟩

/-- HOUR.NORM's conversion table (R136). -/
def Obligations.HourNormTable : Prop :=
  askHour (.hourNorm true .am 12#8) = some ⟨.h24, 0#8⟩
  ∧ (∀ h : Byte, 1 ≤ h.toNat → h.toNat ≤ 11 → askHour (.hourNorm true .am h) = some ⟨.h24, h⟩)
  ∧ askHour (.hourNorm true .pm 12#8) = some ⟨.h24, 12#8⟩
  ∧ (∀ h : Byte, 1 ≤ h.toNat → h.toNat ≤ 11 → askHour (.hourNorm true .pm h) = some ⟨.h24, h + 12#8⟩)
  ∧ askHour (.hourNorm false .h24 0#8) = some ⟨.am, 12#8⟩
  ∧ (∀ h : Byte, 1 ≤ h.toNat → h.toNat ≤ 11 → askHour (.hourNorm false .h24 h) = some ⟨.am, h⟩)
  ∧ askHour (.hourNorm false .h24 12#8) = some ⟨.pm, 12#8⟩
  ∧ ∀ h : Byte, 13 ≤ h.toNat → h.toNat ≤ 23 → askHour (.hourNorm false .h24 h) = some ⟨.pm, h - 12#8⟩

/-- The five laws of the hour codec (R137). -/
def Obligations.HourCodecLaws : Prop :=
  (∀ x : TaggedHour, Spec.hourValid x →
      ∃ b : Byte, askByte (.hourEnc (tagField x.tag) x.hour) = some b ∧ askHour (.hourDec b) = some x)
  ∧ (∀ h : Byte, h.toNat ≤ 23 → ∃ x : TaggedHour, askHour (.hourNorm false .h24 h) = some x
      ∧ askHour (.hourNorm true (tagField x.tag) x.hour) = some ⟨.h24, h⟩)
  ∧ (askHour (.hourNorm false .h24 0#8) = some ⟨.am, 12#8⟩ ∧ askHour (.hourNorm true .am 12#8) = some ⟨.h24, 0#8⟩
      ∧ askHour (.hourNorm false .h24 12#8) = some ⟨.pm, 12#8⟩ ∧ askHour (.hourNorm true .pm 12#8) = some ⟨.h24, 12#8⟩)
  ∧ (∀ x : TaggedHour, Spec.hourValid x → x.tag ≠ .h24 →
      ∃ y : TaggedHour, askHour (.hourNorm true (tagField x.tag) x.hour) = some y
        ∧ askHour (.hourNorm false (tagField y.tag) y.hour) = some x)
  ∧ (∀ (m : Bool) (x : TaggedHour), Spec.hourValid x →
      ∃ y : TaggedHour, askHour (.hourNorm m (tagField x.tag) x.hour) = some y
        ∧ askHour (.hourNorm m (tagField y.tag) y.hour) = some y)
  ∧ (∀ x y : TaggedHour, Spec.hourValid x → Spec.hourValid y →
      askByte (.hourEnc (tagField x.tag) x.hour) = askByte (.hourEnc (tagField y.tag) y.hour) → x = y)
  ∧ ∀ (x : TaggedHour) (b : Byte), Spec.hourValid x → askByte (.hourEnc (tagField x.tag) x.hour) = some b →
      b.toNat % 16 ≤ 9
      ∧ (x.tag = .h24 → b.toNat ≤ 0x23) ∧ (x.tag = .am → 0x41 ≤ b.toNat ∧ b.toNat ≤ 0x52)
      ∧ (x.tag = .pm → 0x61 ≤ b.toNat ∧ b.toNat ≤ 0x72)

/-- TRIM.PACK is sign and magnitude, and injective on the 256 signed bytes (R185). -/
def Obligations.TrimPackIsSignMagnitude : Prop :=
  (∀ a : Byte, a.toInt < 0 → a.toInt ≠ -128 →
      askByte (.trimPack a) = some (Spec.byte (0x80 ||| a.toInt.natAbs)) ∧ a.toInt.natAbs < 128
        ∧ (~~~(a - 1#8)).toNat = a.toInt.natAbs)
  ∧ (∀ a : Byte, 0 ≤ a.toInt → askByte (.trimPack a) = some (Spec.byte a.toInt.natAbs) ∧ a.toInt.natAbs < 128)
  ∧ askByte (.trimPack 0x80#8) = some 0x80#8
  ∧ ∀ a b : Byte, askByte (.trimPack a) = askByte (.trimPack b) → a = b

/-- BIT.WR writes the bits of the mask and keeps every other bit (R180's "Bits outside B are always kept"); BIT.TEST on
the result of a one-bit write reads the value written. -/
def Obligations.BitWrKeepsBitsOutsideMask : Prop :=
  (∀ (a mask : Byte) (v : Bool), ∃ b : Byte, askByte (.bitWr a mask v) = some b
      ∧ ∀ k : Nat, k < 8 → b.getLsbD k = if mask.getLsbD k then v else a.getLsbD k)
  ∧ ∀ (a : Byte) (k : Nat) (v : Bool), k < 8 → ∃ b : Byte, askByte (.bitWr a (1#8 <<< k) v) = some b
      ∧ askFlag (.bitTest b (1#8 <<< k)) = some v

/-- Each time field's unpack operation gives back what its pack operation was given, whatever was folded in (R165). -/
def Obligations.UnpackOfPackIsField : Prop :=
  (∀ (a : Byte) (f : Bool), a.toNat ≤ 59 →
      ∃ b : Byte, askByte (.secPack a f) = some b ∧ askByte (.secUnpack b) = some a)
  ∧ (∀ a : Byte, a.toNat ≤ 59 →
      ∃ b : Byte, askByte (.minPack a) = some b ∧ askByte (Pseudo.minUnpack b).expand = some a)
  ∧ (∀ (a : Byte) (f : Bool), 1 ≤ a.toNat → a.toNat ≤ 7 →
      ∃ b : Byte, askByte (.wkdayPack a f) = some b ∧ askByte (.wkdayUnpack b) = some a)
  ∧ (∀ a : Byte, 1 ≤ a.toNat → a.toNat ≤ 31 →
      ∃ b : Byte, askByte (.dayPack a) = some b ∧ askByte (Pseudo.dayUnpack b).expand = some a)
  ∧ (∀ a : Byte, 1 ≤ a.toNat → a.toNat ≤ 12 →
      ∃ b : Byte, askByte (.monthPack a) = some b ∧ askByte (.monthUnpack b) = some a)
  ∧ ∀ y : Half, 2000 ≤ y.toNat → y.toNat ≤ 2099 →
      ∃ b : Byte, askByte (.yearPack y) = some b ∧ askHalf (.yearUnpack b) = some y

/-! ## The assembler's forms and the pseudo-instructions -/

/-- The operand forms of R95: a line whose operands fit has the request word of its format, a line whose operands do not
fit is refused. -/
def Obligations.AssemblerFitsOperands : Prop :=
  (∀ (op : Op) (a : Nat), op.format = .u8 → assemble op [.num a] =
      if a ≤ 255 then some (op.matchWord + BitVec.ofNat 32 a) else none)
  ∧ (∀ (op : Op) (a f : Nat), op.format = .u8f → assemble op [.num a, .num f] =
      if a ≤ 255 ∧ f ≤ 1 then some (op.matchWord + BitVec.ofNat 32 (f * 2 ^ 24 + a)) else none)
  ∧ (∀ y : Nat, assemble .yearPack [.num y] =
      if y ≤ 65535 then some (0x70000000#32 + BitVec.ofNat 32 y) else none)
  ∧ (∀ (t : HourTag) (h : Nat), assemble .hourEnc [.hour t h] =
      if h ≤ 255 then some (0x18000000#32 + BitVec.ofNat 32 (Spec.tagNumber (tagField t) * 2 ^ 25 + h)) else none)
  ∧ (∀ (m : Nat) (t : HourTag) (h : Nat), assemble .hourNorm [.num m, .hour t h] =
      if (m = 24 ∨ m = 12) ∧ h ≤ 255 then
        some (0x28000000#32 + BitVec.ofNat 32
          (Spec.tagNumber (tagField t) * 2 ^ 25 + (if m = 24 then 1 else 0) * 2 ^ 24 + h)) else none)
  ∧ (∀ a mask v : Nat, assemble .bitWr [.num a, .num mask, .num v] =
      if a ≤ 255 ∧ mask ≤ 255 ∧ v ≤ 1 then
        some (0x80000000#32 + BitVec.ofNat 32 (v * 2 ^ 24 + mask * 2 ^ 16 + a)) else none)
  ∧ (∀ a mask : Nat, assemble .bitTest [.num a, .num mask] =
      if a ≤ 255 ∧ mask ≤ 255 then some (0x88000000#32 + BitVec.ofNat 32 (mask * 2 ^ 16 + a)) else none)
  ∧ (∀ a code : Nat, assemble .ctrlSqwfs [.num a, .num code] =
      if a ≤ 255 ∧ code ≤ 3 then some (0x90000000#32 + BitVec.ofNat 32 (code * 2 ^ 16 + a)) else none)
  ∧ (∀ wd code pol : Nat, assemble .almwkPack [.num wd, .num code, .num pol] =
      if wd ≤ 255 ∧ code ≤ 7 ∧ pol ≤ 1 then
        some (0xA0000000#32 + BitVec.ofNat 32 (pol * 2 ^ 24 + code * 2 ^ 16 + wd)) else none)
  ∧ ∀ level : Nat, assemble .eewpPack [.num level] =
      if level ≤ 3 then some (0xB8000000#32 + BitVec.ofNat 32 level) else none

/-- The request words of the pseudo-instructions (R96). -/
def Obligations.PseudoInstructionWords : Prop :=
  (∀ b : Byte,
    encode (Pseudo.minUnpack b).expand = 0x10000000#32 ||| b.setWidth 32
    ∧ encode (Pseudo.dayUnpack b).expand = 0x10000000#32 ||| b.setWidth 32
    ∧ encode (Pseudo.hoursUnpack b).expand = 0x20000000#32 ||| b.setWidth 32
    ∧ encode (Pseudo.almSecPack b).expand = 0x30000000#32 ||| b.setWidth 32
    ∧ encode (Pseudo.almMinPack b).expand = 0x40000000#32 ||| b.setWidth 32
    ∧ encode (Pseudo.almDayPack b).expand = 0x58000000#32 ||| b.setWidth 32
    ∧ encode (Pseudo.almMonthPack b).expand = 0x60000000#32 ||| b.setWidth 32
    ∧ encode (Pseudo.pfMinUnpack b).expand = 0x10000000#32 ||| b.setWidth 32
    ∧ encode (Pseudo.pfHourUnpack b).expand = 0x20000000#32 ||| b.setWidth 32
    ∧ encode (Pseudo.pfDayUnpack b).expand = 0x10000000#32 ||| b.setWidth 32
    ∧ encode (Pseudo.oscStart b).expand = 0x81800000#32 ||| b.setWidth 32
    ∧ encode (Pseudo.oscStop b).expand = 0x80800000#32 ||| b.setWidth 32
    ∧ encode (Pseudo.oscRunning b).expand = 0x88200000#32 ||| b.setWidth 32
    ∧ encode (Pseudo.vbatEn b).expand = 0x81080000#32 ||| b.setWidth 32
    ∧ encode (Pseudo.vbatDis b).expand = 0x80080000#32 ||| b.setWidth 32
    ∧ encode (Pseudo.pwrfailTest b).expand = 0x88100000#32 ||| b.setWidth 32
    ∧ encode (Pseudo.pwrfailClr b).expand = 0x80100000#32 ||| b.setWidth 32
    ∧ encode (Pseudo.almifTest b).expand = 0x88080000#32 ||| b.setWidth 32
    ∧ encode (Pseudo.almifClr b).expand = 0x80080000#32 ||| b.setWidth 32)
  ∧ (∀ (t : HourTag) (h : Byte), encode (Pseudo.hoursPack t h).expand =
      0x18000000#32 ||| BitVec.ofNat 32 (Spec.tagNumber (tagField t) * 2 ^ 25) ||| h.setWidth 32)
  ∧ ∀ (b : Byte) (v : Bool),
    encode (Pseudo.almpolWr b v).expand = 0x80800000#32 ||| BitVec.ofNat 32 (Spec.bit v * 2 ^ 24) ||| b.setWidth 32
    ∧ encode (Pseudo.ctrlOut b v).expand = 0x80800000#32 ||| BitVec.ofNat 32 (Spec.bit v * 2 ^ 24) ||| b.setWidth 32
    ∧ encode (Pseudo.ctrlSqwen b v).expand = 0x80400000#32 ||| BitVec.ofNat 32 (Spec.bit v * 2 ^ 24) ||| b.setWidth 32
    ∧ encode (Pseudo.ctrlAlm1en b v).expand = 0x80200000#32 ||| BitVec.ofNat 32 (Spec.bit v * 2 ^ 24) ||| b.setWidth 32
    ∧ encode (Pseudo.ctrlAlm0en b v).expand = 0x80100000#32 ||| BitVec.ofNat 32 (Spec.bit v * 2 ^ 24) ||| b.setWidth 32
    ∧ encode (Pseudo.ctrlExtosc b v).expand = 0x80080000#32 ||| BitVec.ofNat 32 (Spec.bit v * 2 ^ 24) ||| b.setWidth 32
    ∧ encode (Pseudo.ctrlCrstrim b v).expand =
        0x80040000#32 ||| BitVec.ofNat 32 (Spec.bit v * 2 ^ 24) ||| b.setWidth 32

/-! ## The requester's use of the block -/

/-- A date/time with every field in its range packs to the seven bytes of R163 after the start address SECONDS (R65);
with any field out of its range nothing is written. -/
def Obligations.PackDateTimeGivesPayload : Prop :=
  (∀ (c : Config.Context) (d : DateTime), Spec.dateTimeValid d →
    (packDateTime c d).map TimeRegs.payload = some
      [0x00#8, Spec.byte (Spec.bcd d.second.toNat ||| Spec.bit c.isEnabled <<< 7), Spec.byte (Spec.bcd d.minute.toNat),
        Spec.byte (Spec.hourByte (Spec.tagNumber (tagField d.hour.tag)) d.hour.hour.toNat),
        Spec.byte (Spec.bcd d.weekday.toNat ||| Spec.bit c.isBatteryPowerEnabled <<< 3),
        Spec.byte (Spec.bcd d.day.toNat), Spec.byte (Spec.bcd d.month.toNat),
        Spec.byte (Spec.bcd (d.year.toNat - 2000))])
  ∧ ∀ (c : Config.Context) (d : DateTime), ¬ Spec.dateTimeValid d → packDateTime c d = none

/-- Unpacking the seven bytes that a valid date/time packs to gives the date/time back, whatever flags were folded in
(R163, R164). -/
def Obligations.UnpackOfPackDateTimeIsDateTime : Prop :=
  ∀ (c : Config.Context) (d : DateTime), Spec.dateTimeValid d →
    ∃ r : TimeRegs, packDateTime c d = some r ∧ unpackDateTime r = some d

/-- The alarm hour is HOUR.ENC of HOUR.NORM's result in the current mode; HOUR.NORM's result is valid, so the HOUR.ENC
that follows answers OK; and the byte decodes to that result (R202). -/
def Obligations.AlarmHourIsNormalisedHour : Prop :=
  (∀ (c : Config.Context) (x : TaggedHour), Spec.hourValid x →
    ∃ (n : TaggedHour) (b : Byte), askHour (.hourNorm c.isRunningIn24hMode (tagField x.tag) x.hour) = some n
      ∧ Spec.hourValid n ∧ askByte (.hourEnc (tagField n.tag) n.hour) = some b
      ∧ alarmHour c x = some b ∧ askHour (.hourDec b) = some n
      ∧ (n.tag = .h24 ↔ c.isRunningIn24hMode = true))
  ∧ askHour (.hourNorm false .h24 23#8) = some ⟨.pm, 11#8⟩ ∧ askByte (.hourEnc .pm 11#8) = some 0x71#8
  ∧ alarmHour { Config.initialContext with isRunningIn24hMode := false } ⟨.h24, 23#8⟩ = some 0x71#8

/-- A valid alarm with a used match code packs to R201's six bytes, after the alarm's start address (R33, R66); with any
field out of its range, or an unused match code, nothing is written. -/
def Obligations.PackAlarmGivesPayload : Prop :=
  (∀ (c : Config.Context) (d : AlarmDateTime) (m : MatchCode) (p : Bool), Spec.alarmValid d →
    m ≠ .unused5 → m ≠ .unused6 →
    ∃ r : AlarmRegs, packAlarm c d m p = some r ∧ some r.hour = alarmHour c d.hour
      ∧ r.sec = Spec.byte (Spec.bcd d.second.toNat) ∧ r.min = Spec.byte (Spec.bcd d.minute.toNat)
      ∧ r.wkday = Spec.byte (Spec.bcd d.weekday.toNat ||| Spec.matchNumber m <<< 4 ||| Spec.bit p <<< 7)
      ∧ r.date = Spec.byte (Spec.bcd d.day.toNat) ∧ r.mth = Spec.byte (Spec.bcd d.month.toNat)
      ∧ r.payload .alarm0 = [0x0A#8, r.sec, r.min, r.hour, r.wkday, r.date, r.mth]
      ∧ r.payload .alarm1 = [0x11#8, r.sec, r.min, r.hour, r.wkday, r.date, r.mth])
  ∧ ∀ (c : Config.Context) (d : AlarmDateTime) (m : MatchCode) (p : Bool),
      (¬ Spec.alarmValid d ∨ m = .unused5 ∨ m = .unused6) → packAlarm c d m p = none

/-- Setting alarm 1 with a polarity other than the cached one first rewrites alarm 0's weekday byte with the polarity in
bit 7 and every other bit kept; with the cached polarity, and for alarm 0, the payload alone is written; and where a
request fails nothing is written (R203). -/
def Obligations.AlarmOnePolarityRewritesAlarmZero : Prop :=
  (∀ (c : Config.Context) (d : AlarmDateTime) (m : MatchCode) (p : Bool) (w : Byte) (r : AlarmRegs),
    packAlarm c d m p = some r → p ≠ c.alarmPolarityHigh →
    alarmWrites c .alarm1 d m p w =
      some [[0x0D#8, if p then w ||| 0x80#8 else w &&& 0x7F#8], r.payload .alarm1])
  ∧ (∀ (c : Config.Context) (d : AlarmDateTime) (m : MatchCode) (p : Bool) (w : Byte) (r : AlarmRegs),
    packAlarm c d m p = some r → p = c.alarmPolarityHigh →
    alarmWrites c .alarm1 d m p w = some [r.payload .alarm1])
  ∧ (∀ (c : Config.Context) (d : AlarmDateTime) (m : MatchCode) (p : Bool) (w : Byte) (r : AlarmRegs),
    packAlarm c d m p = some r → alarmWrites c .alarm0 d m p w = some [r.payload .alarm0])
  ∧ ∀ (c : Config.Context) (sel : AlarmSel) (d : AlarmDateTime) (m : MatchCode) (p : Bool) (w : Byte),
    packAlarm c d m p = none → alarmWrites c sel d m p w = none

/-- Every power-fail record decodes, field by field (R206). -/
def Obligations.PowerFailRecordDecodes : Prop :=
  ∀ r : PowerFailRegs, ∃ d : PowerFailDateTime, unpackPowerFail r = some d
    ∧ d.minute.toNat = Spec.dec r.min.toNat
    ∧ Spec.tagNumber (tagField d.hour.tag) = (Spec.hourOfByte r.hour.toNat).1
    ∧ d.hour.hour.toNat = (Spec.hourOfByte r.hour.toNat).2
    ∧ d.day.toNat = Spec.dec r.day.toNat
    ∧ d.weekday.toNat = r.wkdayMonth.toNat / 32
    ∧ d.month.toNat = Spec.dec (r.wkdayMonth.toNat % 32)

/-- The engine's initial context, at the values R241 says "The spec takes" (its own choice for three of the five), and
what follows from it: an alarm set before any `setHours` has its hour in
12-hour form. -/
def Obligations.InitialContextValues : Prop :=
  Config.initialContext = ⟨false, false, false, false, 0x80#8⟩
  ∧ ∀ x : TaggedHour, Spec.hourValid x →
      ∃ b : Byte, alarmHour Config.initialContext x = some b ∧ b.getLsbD 6 = true

/-- A Config operation acts on the cached byte: each named one writes its own bit of CONTROL and keeps the others, the
frequency code writes bits 1:0; and the cache takes the new byte only after the write succeeds (R183, R247). -/
def Obligations.ConfigOperationsActOnCache : Prop :=
  (∀ (c : Config.Context) (v : Bool),
    configByte c (fun b => (Pseudo.ctrlExtosc b v).expand) =
      some (if v then c.config ||| 0x08#8 else c.config &&& 0xF7#8)
    ∧ configByte c (fun b => (Pseudo.ctrlSqwen b v).expand) =
      some (if v then c.config ||| 0x40#8 else c.config &&& 0xBF#8)
    ∧ configByte c (fun b => (Pseudo.ctrlOut b v).expand) =
      some (if v then c.config ||| 0x80#8 else c.config &&& 0x7F#8)
    ∧ configByte c (fun b => (Pseudo.ctrlCrstrim b v).expand) =
      some (if v then c.config ||| 0x04#8 else c.config &&& 0xFB#8)
    ∧ configByte c (fun b => (Pseudo.ctrlAlm0en b v).expand) =
      some (if v then c.config ||| 0x10#8 else c.config &&& 0xEF#8)
    ∧ configByte c (fun b => (Pseudo.ctrlAlm1en b v).expand) =
      some (if v then c.config ||| 0x20#8 else c.config &&& 0xDF#8))
  ∧ (∀ (c : Config.Context) (code : SqwFreq),
    configByte c (fun b => .ctrlSqwfs b code) = some ((c.config &&& 0xFC#8) ||| Spec.byte (Spec.freqNumber code)))
  ∧ ∀ (c : Config.Context) (b : Byte),
    afterControlWrite c b false = c ∧ (afterControlWrite c b true).config = b

/-- The addresses of the device registers the spec names (R62, R63) and the flag bits of CONTROL (R31): bits 1:0 are the
only two bits that no named flag uses. -/
def Obligations.RegisterMapAddresses : Prop :=
  [DeviceReg.seconds, .minutes, .hours, .weekday, .day, .month, .year, .control, .osctrim, .eeUnlock].map
      DeviceReg.address = [0x00#8, 0x01#8, 0x02#8, 0x03#8, 0x04#8, 0x05#8, 0x06#8, 0x07#8, 0x08#8, 0x09#8]
  ∧ [AlarmReg.sec, .min, .hour, .wkday, .date, .mth].map (fun r => (DeviceReg.alarm .alarm0 r).address)
      = [0x0A#8, 0x0B#8, 0x0C#8, 0x0D#8, 0x0E#8, 0x0F#8]
  ∧ [AlarmReg.sec, .min, .hour, .wkday, .date, .mth].map (fun r => (DeviceReg.alarm .alarm1 r).address)
      = [0x11#8, 0x12#8, 0x13#8, 0x14#8, 0x15#8, 0x16#8]
  ∧ [PowerFailReg.min, .hour, .day, .wkdayMonth].map (fun r => (DeviceReg.powerFail .down r).address)
      = [0x18#8, 0x19#8, 0x1A#8, 0x1B#8]
  ∧ [PowerFailReg.min, .hour, .day, .wkdayMonth].map (fun r => (DeviceReg.powerFail .up r).address)
      = [0x1C#8, 0x1D#8, 0x1E#8, 0x1F#8]
  ∧ DeviceReg.eeStatus.address = 0xFF#8
  ∧ (∀ a : Byte, sramWindow.holds a = true ↔ 0x20 ≤ a.toNat ∧ a.toNat < 0x60)
  ∧ (∀ a : Byte, eepromWindow.holds a = true ↔ a.toNat < 0x80)
  ∧ (∀ a : Byte, protectedEepromWindow.holds a = true ↔ 0xF0 ≤ a.toNat ∧ a.toNat < 0xF8)
  ∧ DeviceFlag.out.mask ||| DeviceFlag.sqwen.mask ||| DeviceFlag.alm1en.mask ||| DeviceFlag.alm0en.mask
      ||| DeviceFlag.extosc.mask ||| DeviceFlag.crstrim.mask = 0xFC#8
end

