-- ==== Sys2Proof/Laws/Word.lean ====
section
/-! SUPPORT. The request word and its fields, the response word and its fields, the codes and what they name. -/

namespace Sys2Proof

/-- The fields of a request word built from fields. -/
@[simp] theorem fieldsOf_toWord (x : Fields) : fieldsOf x.toWord = x := by
  obtain ⟨op, tag, f, b, arg⟩ := x
  simp only [fieldsOf, Fields.toWord, Fields.mk.injEq]
  refine ⟨?_, ?_, ?_, ?_, ?_⟩
  · ext i hi
    interval_cases i <;> simp
  · ext i hi
    interval_cases i <;> simp
  · simp
  · ext i hi
    interval_cases i <;> simp
  · ext i hi
    interval_cases i <;> simp

/-- A request word is built from its fields: no bit is left out. -/
@[simp] theorem toWord_fieldsOf (w : Word) : (fieldsOf w).toWord = w := by
  apply BitVec.eq_of_getLsbD_eq
  intro i hi
  simp only [fieldsOf, Fields.toWord, BitVec.getLsbD_or, BitVec.getLsbD_shiftLeft, BitVec.getLsbD_setWidth,
    BitVec.getLsbD_extractLsb', BitVec.getLsbD_ofBool]
  rcases (by omega : i < 16 ∨ (16 ≤ i ∧ i < 24) ∨ i = 24 ∨ (25 ≤ i ∧ i < 27) ∨ 27 ≤ i) with
    h | ⟨h, h'⟩ | h | ⟨h, h'⟩ | h
  · simp [hi, h, show i < 27 by omega, show i < 25 by omega, show i < 24 by omega]
  · simp [hi, show i < 27 by omega, show i < 25 by omega, show i < 24 by omega, show ¬ i < 16 by omega,
      show i - 16 < 8 by omega, show 16 + (i - 16) = i by omega, show i - 16 < 32 by omega]
  · subst h; simp
  · simp [hi, show i < 27 by omega, show ¬ i < 25 by omega, show ¬ i < 24 by omega, show ¬ i < 16 by omega,
      show i - 25 < 2 by omega, show 25 + (i - 25) = i by omega, show ¬ i - 16 < 8 by omega,
      show ¬ i - 24 = 0 by omega, show i - 25 < 32 by omega]
  · simp [hi, show ¬ i < 27 by omega, show ¬ i < 25 by omega, show ¬ i < 24 by omega, show ¬ i < 16 by omega,
      show i - 27 < 5 by omega, show 27 + (i - 27) = i by omega, show ¬ i - 16 < 8 by omega,
      show ¬ i - 24 = 0 by omega, show ¬ i - 25 < 2 by omega, show i - 27 < 32 by omega]

/-- The fields determine the request word. -/
theorem fieldsOf_injective {v w : Word} (h : fieldsOf v = fieldsOf w) : v = w := by
  rw [← toWord_fieldsOf v, h, toWord_fieldsOf]

/-! ## Codes and what they name -/

@[simp] theorem opOfCode_code (op : Op) : Op.ofCode op.code = some op := by cases op <;> rfl
@[simp] theorem tagOfCode_code (t : TagField) : TagField.ofCode t.code = t := by cases t <;> rfl
@[simp] theorem sqwOfCode_code (c : SqwFreq) : SqwFreq.ofCode c.code = c := by cases c <;> rfl
@[simp] theorem matchOfCode_code (c : MatchCode) : MatchCode.ofCode c.code = c := by cases c <;> rfl
@[simp] theorem levelOfCode_code (l : EepromLevel) : EepromLevel.ofCode l.code = l := by cases l <;> rfl

@[simp] theorem tagCode_ofCode (c : BitVec 2) : (TagField.ofCode c).code = c := by revert c; decide
@[simp] theorem sqwCode_ofCode (c : BitVec 2) : (SqwFreq.ofCode c).code = c := by revert c; decide
@[simp] theorem matchCode_ofCode (c : BitVec 3) : (MatchCode.ofCode c).code = c := by revert c; decide
@[simp] theorem levelCode_ofCode (c : BitVec 2) : (EepromLevel.ofCode c).code = c := by revert c; decide

/-- An OP value that is assigned is the code of the operation it is assigned to (R84). -/
theorem opCode_of_ofCode {c : BitVec 5} {op : Op} (h : Op.ofCode c = some op) : op.code = c := by
  revert c; cases op <;> decide

namespace Machine

@[simp] theorem hourTagOfCode_code (t : HourTag) : hourTagOfCode (hourTagCode t) = some t := by cases t <;> rfl

theorem rspStatus_ok (r : Half) (t : BitVec 2) (f : Bool) : rspStatus (Response.ok r t f).toWord = 0b00#2 := by
  ext i hi
  interval_cases i <;> simp [rspStatus, Response.toWord]

theorem rspTag_ok (r : Half) (t : BitVec 2) (f : Bool) : rspTag (Response.ok r t f).toWord = t := by
  ext i hi
  interval_cases i <;> simp [rspTag, Response.toWord]

theorem rspFlag_ok (r : Half) (t : BitVec 2) (f : Bool) : rspFlag (Response.ok r t f).toWord = f := by
  simp [rspFlag, Response.toWord]

theorem rspResult_ok (r : Half) (t : BitVec 2) (f : Bool) : rspResult (Response.ok r t f).toWord = r := by
  ext i hi
  interval_cases i <;> simp [rspResult, Response.toWord]

theorem rspStatus_raised (c : Cause) : rspStatus (Response.raised c).toWord = c.status := by cases c <;> decide
theorem rspTag_raised (c : Cause) : rspTag (Response.raised c).toWord = 0b00#2 := by cases c <;> decide
theorem rspFlag_raised (c : Cause) : rspFlag (Response.raised c).toWord = false := by cases c <;> decide
theorem rspResult_raised (c : Cause) : rspResult (Response.raised c).toWord = 0#16 := by cases c <;> decide

/-- The response word as a number (R88). -/
theorem ok_toNat (r : Half) (t : BitVec 2) (f : Bool) :
    (Response.ok r t f).toWord.toNat = t.toNat * 2 ^ 28 + f.toNat * 2 ^ 27 + r.toNat := by
  have hr := r.isLt
  have ht := t.isLt
  have hf : f.toNat < 2 := by cases f <;> decide
  have e : (Response.ok r t f).toWord = BitVec.ofNat 32 (t.toNat * 2 ^ 28 + f.toNat * 2 ^ 27 + r.toNat) := by
    apply BitVec.eq_of_toNat_eq
    simp only [Response.toWord, BitVec.toNat_or, BitVec.toNat_shiftLeft, BitVec.toNat_setWidth, BitVec.toNat_ofBool,
      BitVec.toNat_ofNat]
    rw [Nat.mod_eq_of_lt (by omega : t.toNat < 2 ^ 32), Nat.mod_eq_of_lt (by omega : f.toNat < 2 ^ 32),
      Nat.mod_eq_of_lt (by omega : r.toNat < 2 ^ 32), Nat.shiftLeft_eq, Nat.shiftLeft_eq,
      Nat.mod_eq_of_lt (by omega : t.toNat * 2 ^ 28 < 2 ^ 32), Nat.mod_eq_of_lt (by omega : f.toNat * 2 ^ 27 < 2 ^ 32),
      Nat.mod_eq_of_lt (by omega : t.toNat * 2 ^ 28 + f.toNat * 2 ^ 27 + r.toNat < 2 ^ 32)]
    rw [Nat.lor_assoc, ← Nat.shiftLeft_eq f.toNat 27, ← Nat.shiftLeft_add_eq_or_of_lt (by omega : r.toNat < 2 ^ 27),
      Nat.shiftLeft_eq, ← Nat.shiftLeft_eq t.toNat 28, ← Nat.shiftLeft_add_eq_or_of_lt (by omega), Nat.shiftLeft_eq]
    omega
  rw [e, BitVec.toNat_ofNat, Nat.mod_eq_of_lt (by omega)]

end Machine

end Sys2Proof
end

