-- ==== Sys2Proof/Laws/Decode.lean ====
section
/-! SUPPORT. What the decoder can answer, and how a row's mask and match fix the OP field. -/

namespace Sys2Proof

/-- All a decoded request word says: its OP is assigned, its reserved bits are 0, the instruction is the operation with
the operands of its fields, and it is well-formed (R98). -/
theorem decode_ok {w : Word} {i : Instr} (h : decode w = .ok i) :
    ∃ op, Op.ofCode (fieldsOf w).op = some op ∧ w &&& op.format.mask = op.matchWord
      ∧ instrOf op (fieldsOf w) = i ∧ i.wf = true := by
  unfold decode at h
  split at h
  · cases h
  · rename_i op hop
    split at h
    · rename_i hm
      dsimp only at h
      split at h
      · rename_i ht
        split at h
        · rename_i hu
          cases h
          exact ⟨op, hop, hm, rfl, by simp [Instr.wf, ht, hu]⟩
        · cases h
      · cases h
    · cases h

/-- The converse of `decode_ok`. -/
theorem decode_eq_ok {w : Word} {op : Op} (hop : Op.ofCode (fieldsOf w).op = some op)
    (hm : w &&& op.format.mask = op.matchWord) (hw : (instrOf op (fieldsOf w)).wf = true) :
    decode w = .ok (instrOf op (fieldsOf w)) := by
  simp only [Instr.wf, Bool.and_eq_true] at hw
  simp [decode, hop, hm, hw.1, hw.2]

/-- A request word that a row of the opcode map fits has the row's OP (R82, R84). -/
theorem opCode_of_match {w : Word} {op : Op} (hm : w &&& op.format.mask = op.matchWord) :
    (fieldsOf w).op = op.code := by
  have h : (w &&& op.format.mask).extractLsb' 27 5 = op.matchWord.extractLsb' 27 5 := by rw [hm]
  have e : (w &&& op.format.mask).extractLsb' 27 5 = w.extractLsb' 27 5 := by
    rw [BitVec.extractLsb'_and, show op.format.mask.extractLsb' 27 5 = BitVec.allOnes 5 by cases op <;> decide,
      BitVec.and_allOnes]
  rw [e] at h
  rw [show (fieldsOf w).op = w.extractLsb' 27 5 from rfl, h]
  cases op <;> decide

/-- What the decoder answers for a request word that a row fits, where the checks of R86 and R87 pass. -/
theorem decode_of_match {w : Word} {op : Op} (hm : w &&& op.format.mask = op.matchWord)
    (hw : (instrOf op (fieldsOf w)).wf = true) : decode w = .ok (instrOf op (fieldsOf w)) :=
  decode_eq_ok (by rw [opCode_of_match hm, opOfCode_code]) hm hw

/-- A request word that a row fits, but whose operands fail R86 or R87, is refused. -/
theorem decode_of_match_illFormed {w : Word} {op : Op} (hm : w &&& op.format.mask = op.matchWord)
    (hw : (instrOf op (fieldsOf w)).wf = false) : ∃ why, decode w = .error why := by
  rcases h : decode w with why | i
  · exact ⟨why, rfl⟩
  · obtain ⟨op', hop, -, hi, hwf⟩ := decode_ok h
    rw [opCode_of_match hm, opOfCode_code] at hop
    cases hop
    rw [hi, hwf] at hw
    cases hw

/-- A request word that no row fits is refused (R83, R85). -/
theorem decode_of_no_match {w : Word} (h : ∀ op : Op, w &&& op.format.mask ≠ op.matchWord) :
    ∃ why, decode w = .error why := by
  rcases hd : decode w with why | i
  · exact ⟨why, rfl⟩
  · obtain ⟨op, -, hm, -, -⟩ := decode_ok hd
    exact absurd hm (h op)

end Sys2Proof
end

