-- ==== Sys2Proof/Laws/Operands.lean ====
section
/-! SUPPORT. The operand readings and codec functions as arithmetic on naturals. -/

namespace Sys2Proof.Machine

@[simp] theorem zext16_toNat (v : Byte) : (zext16 v).toNat = v.toNat := by
  have := v.isLt
  simp only [zext16, BitVec.toNat_setWidth]
  omega

theorem half_toNat {n : Nat} (h : n < 65536) : (half n).toNat = n := by
  simp [half, Nat.mod_eq_of_lt h]

@[simp] theorem bcd_toNat (n : Nat) : (bcd n).toNat = ((n / 10) * 16 + n % 10) % 256 := by
  simp [bcd]

/-- The nibbles of a byte as quotient and remainder. -/
@[simp] theorem dec_eq (b : Byte) : dec b = b.toNat / 16 * 10 + b.toNat % 16 := by
  have := b.isLt
  simp only [dec, BitVec.extractLsb'_toNat, Nat.shiftRight_eq_div_pow]
  omega

/-- The largest decoded value is 165 (R122). -/
theorem dec_le (b : Byte) : dec b ≤ 165 := by
  have := b.isLt
  rw [dec_eq]
  omega

@[simp] theorem hourTag_tagField (t : HourTag) : hourTag? (tagField t) = some t := by cases t <;> rfl

/-- A tag operand names a variant exactly where R86 lets the request pass. -/
theorem hourTag_isSome (t : TagField) : (hourTag? t).isSome = t.named := by cases t <;> rfl

theorem tagField_of_hourTag {tag : TagField} {t : HourTag} (h : hourTag? tag = some t) : tag = tagField t := by
  cases tag <;> cases t <;> first | rfl | cases h

/-- Conversion to a mode keeps an hour valid (R135). -/
theorem validHour_hourToMode {to24 : Bool} {t : HourTag} {h : Nat} (v : validHour t h = true) :
    validHour (hourToMode to24 t h).1 (hourToMode to24 t h).2 = true := by
  have hb : h ≤ 23 := by
    cases t <;> simp only [validHour, Bool.and_eq_true, decide_eq_true_eq] at v <;> omega
  cases to24 <;> cases t <;> interval_cases h <;> first | rfl | cases v

end Sys2Proof.Machine
end

