-- ==== Sys2Proof/Laws/State.lean ====
section
/-! SUPPORT. One lemma per port and per update of State, so that no proof unfolds a record update. -/

namespace Sys2Proof.Machine

@[simp] theorem respond_req (s : State) (r : Response) : (s.respond r).req = s.req := rfl
@[simp] theorem respond_rsp (s : State) (r : Response) : (s.respond r).rsp = r.toWord := rfl
@[simp] theorem present_req (s : State) (w : Word) : (s.present w).req = w := rfl
@[simp] theorem present_rsp (s : State) (w : Word) : (s.present w).rsp = s.rsp := rfl
@[simp] theorem respond_respond (s : State) (r q : Response) : (s.respond r).respond q = s.respond q := rfl
@[simp] theorem present_present (s : State) (w v : Word) : (s.present w).present v = s.present v := rfl
@[simp] theorem respond_present (s : State) (r : Response) (w : Word) :
    (s.respond r).present w = (s.present w).respond r := rfl
@[simp] theorem withFetchWord_req (s : State) (nbits w : Nat) :
    (s.withFetchWord nbits w).req = BitVec.ofNat 32 (w % 2 ^ nbits) := rfl
@[simp] theorem withFetchWord_rsp (s : State) (nbits w : Nat) : (s.withFetchWord nbits w).rsp = s.rsp := rfl
@[simp] theorem reset_req : State.reset.req = 0x00000000#32 := rfl
@[simp] theorem reset_rsp : State.reset.rsp = 0x80000000#32 := rfl

/-- Answering writes the output port, whatever it held. -/
theorem respond_eq (s : State) (r : Response) : s.respond r = { s with rsp := r.toWord } := rfl

/-- Two states that differ in the output port only answer alike. -/
theorem respond_congr {s t : State} (h : s.req = t.req) (r : Response) : s.respond r = t.respond r := by
  cases s; cases t; cases h; rfl

end Sys2Proof.Machine
end

