-- ==== Sys2Proof/Laws/Ops.lean ====
section
/-! SUPPORT. For each shared operation, all it can do: each answers a next state in which only the output port is
written. -/

namespace Sys2Proof.Machine

theorem answer_next {result : Half} {rtag : BitVec 2} {rflag : Bool} {s t : State}
    (h : answer result rtag rflag s = .next t) : t = s.respond (.ok result rtag rflag) := by
  cases h; rfl

theorem complete_next {result : Half} {s t : State} (h : complete result s = .next t) :
    t = s.respond (.ok result 0b00#2 false) := by
  cases h; rfl

theorem completeHour_next {th : HourTag × Nat} {s t : State} (h : completeHour th s = .next t) :
    t = s.respond (.ok (half th.2) (hourTagCode th.1) (hourFlag th.1)) := by
  cases h; rfl

theorem raise_next {cause : Cause} {s t : State} (h : raise cause s = .next t) : t = s.respond (.raised cause) := by
  cases h; rfl

theorem answer_eq (result : Half) (rtag : BitVec 2) (rflag : Bool) (s : State) :
    answer result rtag rflag s = .next (s.respond (.ok result rtag rflag)) := rfl

theorem complete_eq (result : Half) (s : State) :
    complete result s = .next (s.respond (.ok result 0b00#2 false)) := rfl

theorem completeHour_eq (th : HourTag × Nat) (s : State) :
    completeHour th s = .next (s.respond (.ok (half th.2) (hourTagCode th.1) (hourFlag th.1))) := rfl

theorem raise_eq (cause : Cause) (s : State) : raise cause s = .next (s.respond (.raised cause)) := rfl

end Sys2Proof.Machine
end

