-- ==== Sys2Proof/Laws/PerInstr.lean ====
section
/-! SUPPORT. Facts about every instruction as syntax, one lemma per constructor of `Instr`. -/

namespace Sys2Proof

/-- A request word fits a row where each of its fields does (R82): OP is kept, the others have their reserved bits 0. -/
theorem toWord_and_mask {x : Fields} {m v : Word} (hop : x.op.setWidth 32 <<< 27 &&& m = v)
    (htag : x.tag.setWidth 32 <<< 25 &&& m = 0#32) (hf : (BitVec.ofBool x.f).setWidth 32 <<< 24 &&& m = 0#32)
    (hb : x.b.setWidth 32 <<< 16 &&& m = 0#32) (harg : x.arg.setWidth 32 &&& m = 0#32) : x.toWord &&& m = v := by
  have d : ∀ a b c : Word, (a ||| b) &&& c = a &&& c ||| b &&& c := fun a b c => by
    rw [BitVec.and_comm, BitVec.and_or_distrib_left, BitVec.and_comm c a, BitVec.and_comm c b]
  simp only [Fields.toWord, d, hop, htag, hf, hb, harg, BitVec.or_zero]

namespace Laws.SpellsItsRow

/-- The instruction's request word fits its own row of the opcode map (R82, R84). -/
def Statement (i : Instr) : Prop := encode i &&& i.op.format.mask = i.op.matchWord

/-- The byte formats: OP, and the byte operand in A[7:0]. -/
theorem byteFields_and_mask (op : Op) (a : Byte) (h : op.format = .u8) :
    (byteFields op a).toWord &&& op.format.mask = op.matchWord := by
  rw [h]
  apply toWord_and_mask <;> dsimp only [byteFields]
  · cases op <;> decide
  · decide
  · decide
  · decide
  · revert a; decide

theorem bcdEnc (a : Byte) : Statement (.bcdEnc a) := byteFields_and_mask _ a rfl
theorem bcdDec (a : Byte) : Statement (.bcdDec a) := byteFields_and_mask _ a rfl
theorem hourDec (a : Byte) : Statement (.hourDec a) := byteFields_and_mask _ a rfl
theorem secUnpack (a : Byte) : Statement (.secUnpack a) := byteFields_and_mask _ a rfl
theorem minPack (a : Byte) : Statement (.minPack a) := byteFields_and_mask _ a rfl
theorem wkdayUnpack (a : Byte) : Statement (.wkdayUnpack a) := byteFields_and_mask _ a rfl
theorem dayPack (a : Byte) : Statement (.dayPack a) := byteFields_and_mask _ a rfl
theorem monthPack (a : Byte) : Statement (.monthPack a) := byteFields_and_mask _ a rfl
theorem monthUnpack (a : Byte) : Statement (.monthUnpack a) := byteFields_and_mask _ a rfl
theorem yearUnpack (a : Byte) : Statement (.yearUnpack a) := byteFields_and_mask _ a rfl
theorem trimPack (a : Byte) : Statement (.trimPack a) := byteFields_and_mask _ a rfl
theorem pfWkdayUnpack (a : Byte) : Statement (.pfWkdayUnpack a) := byteFields_and_mask _ a rfl
theorem pfMonthUnpack (a : Byte) : Statement (.pfMonthUnpack a) := byteFields_and_mask _ a rfl

theorem hourEnc (tag : TagField) (a : Byte) : Statement (.hourEnc tag a) := by
  apply toWord_and_mask <;> dsimp only [Instr.fields, byteFields, Instr.op]
  · decide
  · cases tag <;> decide
  · decide
  · decide
  · revert a; decide

theorem hourNorm (to24 : Bool) (tag : TagField) (a : Byte) : Statement (.hourNorm to24 tag a) := by
  apply toWord_and_mask <;> dsimp only [Instr.fields, byteFields, Instr.op]
  · decide
  · cases tag <;> decide
  · cases to24 <;> decide
  · decide
  · revert a; decide

theorem secPack (a : Byte) (st : Bool) : Statement (.secPack a st) := by
  apply toWord_and_mask <;> dsimp only [Instr.fields, byteFields, Instr.op]
  · decide
  · decide
  · cases st <;> decide
  · decide
  · revert a; decide

theorem wkdayPack (a : Byte) (vbaten : Bool) : Statement (.wkdayPack a vbaten) := by
  apply toWord_and_mask <;> dsimp only [Instr.fields, byteFields, Instr.op]
  · decide
  · decide
  · cases vbaten <;> decide
  · decide
  · revert a; decide

theorem yearPack (y : Half) : Statement (.yearPack y) := by
  apply toWord_and_mask <;> dsimp only [Instr.fields, byteFields, Instr.op]
  · decide
  · decide
  · decide
  · decide
  · show y.setWidth 32 &&& 0xFFFF0000#32 = 0#32
    apply BitVec.eq_of_getLsbD_eq
    intro k hk
    rw [BitVec.getLsbD_and, BitVec.getLsbD_setWidth]
    rcases Nat.lt_or_ge k 16 with h | h
    · rw [show (0xFFFF0000#32).getLsbD k = false by interval_cases k <;> rfl]
      simp
    · rw [BitVec.getLsbD_of_ge y k h]
      simp

theorem bitWr (a mask : Byte) (v : Bool) : Statement (.bitWr a mask v) := by
  apply toWord_and_mask <;> dsimp only [Instr.fields, byteFields, Instr.op]
  · decide
  · decide
  · cases v <;> decide
  · revert mask; decide
  · revert a; decide

theorem bitTest (a mask : Byte) : Statement (.bitTest a mask) := by
  apply toWord_and_mask <;> dsimp only [Instr.fields, byteFields, Instr.op]
  · decide
  · decide
  · decide
  · revert mask; decide
  · revert a; decide

theorem ctrlSqwfs (a : Byte) (code : SqwFreq) : Statement (.ctrlSqwfs a code) := by
  apply toWord_and_mask <;> dsimp only [Instr.fields, byteFields, Instr.op]
  · decide
  · decide
  · decide
  · cases code <;> decide
  · revert a; decide

theorem almwkPack (a : Byte) (code : MatchCode) (pol : Bool) : Statement (.almwkPack a code pol) := by
  apply toWord_and_mask <;> dsimp only [Instr.fields, byteFields, Instr.op]
  · decide
  · decide
  · cases pol <;> decide
  · cases code <;> decide
  · revert a; decide

theorem eewpPack (level : EepromLevel) : Statement (.eewpPack level) := by
  apply toWord_and_mask <;> dsimp only [Instr.fields, byteFields, Instr.op]
  · decide
  · decide
  · decide
  · decide
  · cases level <;> decide

end Laws.SpellsItsRow

end Sys2Proof
end

