-- ==== Sys2Proof/Tests/Slice0.lean ====
section
/-! SUPPORT. Tests. Every expected value is the spec's: a word written out from 30_encoding.md rules R81 and R84, or a
request and response of 95_test_vectors.md (S1 to S12, F1 to F6, P1 to P6). `eval` is one step. -/

namespace Sys2Proof.Tests

open Sys2Proof.Machine

/-! ## WellFormed: an ill-formed term for each check (R86, R87) -/

theorem test_wf_refuses_tag_none_enc : (Instr.hourEnc .none 5#8).wf = false := by decide
theorem test_wf_refuses_tag_none_norm : (Instr.hourNorm true .none 1#8).wf = false := by decide
theorem test_wf_refuses_match_five : (Instr.almwkPack 3#8 .unused5 false).wf = false := by decide
theorem test_wf_refuses_match_six : (Instr.almwkPack 3#8 .unused6 true).wf = false := by decide
theorem test_wf_accepts_match_seven : (Instr.almwkPack 0#8 .all true).wf = true := by decide

/-! ## Decoding: one word of each row, its fields written out OP_TAG_F_B_A (R81, R84) -/

theorem test_decode_bcdEnc : decode 0b00001_00_0_00000000_0000000000101010#32 = .ok (.bcdEnc 42#8) := by decide
theorem test_decode_bcdDec : decode 0b00010_00_0_00000000_0000000001011001#32 = .ok (.bcdDec 0x59#8) := by decide
theorem test_decode_hourEnc : decode 0b00011_10_0_00000000_0000000000001011#32 = .ok (.hourEnc .pm 11#8) := by decide
theorem test_decode_hourDec : decode 0b00100_00_0_00000000_0000000001110010#32 = .ok (.hourDec 0x72#8) := by decide
theorem test_decode_hourNorm :
    decode 0b00101_01_1_00000000_0000000000001100#32 = .ok (.hourNorm true .am 12#8) := by decide
theorem test_decode_secPack : decode 0b00110_00_1_00000000_0000000000111010#32 = .ok (.secPack 58#8 true) := by decide
theorem test_decode_secUnpack : decode 0b00111_00_0_00000000_0000000011011000#32 = .ok (.secUnpack 0xD8#8) := by decide
theorem test_decode_minPack : decode 0b01000_00_0_00000000_0000000000111011#32 = .ok (.minPack 59#8) := by decide
theorem test_decode_wkdayPack :
    decode 0b01001_00_1_00000000_0000000000000010#32 = .ok (.wkdayPack 2#8 true) := by decide
theorem test_decode_wkdayUnpack :
    decode 0b01010_00_0_00000000_0000000000101010#32 = .ok (.wkdayUnpack 0x2A#8) := by decide
theorem test_decode_dayPack : decode 0b01011_00_0_00000000_0000000000001101#32 = .ok (.dayPack 13#8) := by decide
theorem test_decode_monthPack : decode 0b01100_00_0_00000000_0000000000001000#32 = .ok (.monthPack 8#8) := by decide
theorem test_decode_monthUnpack :
    decode 0b01101_00_0_00000000_0000000000101000#32 = .ok (.monthUnpack 0x28#8) := by decide
theorem test_decode_yearPack : decode 0b01110_00_0_00000000_0000011111100010#32 = .ok (.yearPack 2018#16) := by decide
theorem test_decode_yearUnpack : decode 0b01111_00_0_00000000_0000000000011000#32 = .ok (.yearUnpack 0x18#8) := by decide
theorem test_decode_bitWr :
    decode 0b10000_00_1_00001000_0000000000100010#32 = .ok (.bitWr 0x22#8 0x08#8 true) := by decide
theorem test_decode_bitTest :
    decode 0b10001_00_0_00100000_0000000000000010#32 = .ok (.bitTest 0x02#8 0x20#8) := by decide
theorem test_decode_ctrlSqwfs :
    decode 0b10010_00_0_00000010_0000000001000011#32 = .ok (.ctrlSqwfs 0x43#8 .f8192) := by decide
theorem test_decode_trimPack : decode 0b10011_00_0_00000000_0000000011111110#32 = .ok (.trimPack 0xFE#8) := by decide
theorem test_decode_almwkPack :
    decode 0b10100_00_1_00000011_0000000000000010#32 = .ok (.almwkPack 2#8 .weekday true) := by decide
theorem test_decode_pfWkdayUnpack :
    decode 0b10101_00_0_00000000_0000000001001000#32 = .ok (.pfWkdayUnpack 0x48#8) := by decide
theorem test_decode_pfMonthUnpack :
    decode 0b10110_00_0_00000000_0000000011101000#32 = .ok (.pfMonthUnpack 0xE8#8) := by decide
theorem test_decode_eewpPack : decode 0b10111_00_0_00000000_0000000000000010#32 = .ok (.eewpPack .half) := by decide

/-- Each of R221's four illegal causes is found by its own check. -/
theorem test_decode_refuses_by_name :
    decode 0x00000000#32 = .error .unassignedOpcode ∧ decode 0xC0000000#32 = .error .unassignedOpcode
    ∧ decode 0x08000100#32 = .error .reservedBits ∧ decode 0x1E000005#32 = .error .tagNone
    ∧ decode 0xA0050003#32 = .error .matchUnused := by decide

theorem test_decodeTableWord : decodeTableWord 32 0xA1070003 = some (.almwkPack 3#8 .all true) := by decide

theorem test_withFetchWord_runs_word :
    step (State.reset.withFetchWord 32 0x3100003A) = .next ⟨0x3100003A#32, 0x000000D8#32⟩ := rfl

/-! ## One step per operation, at its corners (F1 to F5) -/

theorem test_bcdEnc_wraps : eval 0x080000A0#32 = some 0x00000000#32 ∧ eval 0x080000FF#32 = some 0x00000095#32 := by decide
theorem test_bcdDec_unchecked_nibble :
    eval 0x1000009A#32 = some 0x00000064#32 ∧ eval 0x100000FF#32 = some 0x000000A5#32 := by decide
theorem test_hourEnc_limits : eval 0x18000017#32 = some 0x08000023#32 ∧ eval 0x18000018#32 = some 0x40000000#32 := by decide
theorem test_hourEnc_am_limits : eval 0x1A00000C#32 = some 0x00000052#32 ∧ eval 0x1A000000#32 = some 0x40000000#32 := by
  decide
theorem test_hourDec_24h_keeps_bit_5 : eval 0x20000023#32 = some 0x08000017#32 := by decide
theorem test_hourDec_keeps_bit_7 :
    eval 0x200000A3#32 = some 0x08000067#32 ∧ eval 0x200000FF#32 = some 0x20000069#32 := by decide
theorem test_hourNorm_midnight_noon :
    eval 0x28000000#32 = some 0x1000000C#32 ∧ eval 0x2800000C#32 = some 0x2000000C#32
    ∧ eval 0x2B00000C#32 = some 0x08000000#32 ∧ eval 0x2D00000C#32 = some 0x0800000C#32 := by decide
theorem test_hourNorm_validates_matching_mode : eval 0x29000018#32 = some 0x40000000#32 := by decide
theorem test_secPack_limits : eval 0x3000003B#32 = some 0x00000059#32 ∧ eval 0x3100003C#32 = some 0x40000000#32 := by decide
theorem test_secUnpack_masks_st : eval 0x380000FF#32 = some 0x00000055#32 := by decide
theorem test_minPack_limits : eval 0x4000003B#32 = some 0x00000059#32 ∧ eval 0x4000003C#32 = some 0x40000000#32 := by decide
theorem test_wkdayPack_limits :
    eval 0x48000007#32 = some 0x00000007#32 ∧ eval 0x48000000#32 = some 0x40000000#32
    ∧ eval 0x49000008#32 = some 0x40000000#32 := by decide
theorem test_wkdayUnpack_keeps_unnamed_bits : eval 0x500000C2#32 = some 0x0000007A#32 := by decide
theorem test_dayPack_limits : eval 0x5800001F#32 = some 0x00000031#32 ∧ eval 0x58000020#32 = some 0x40000000#32 := by decide
theorem test_monthPack_limits : eval 0x6000000C#32 = some 0x00000012#32 ∧ eval 0x6000000D#32 = some 0x40000000#32 := by
  decide
theorem test_monthUnpack_masks_leapyear : eval 0x680000FF#32 = some 0x00000091#32 := by decide
theorem test_yearPack_limits :
    eval 0x70000833#32 = some 0x00000099#32 ∧ eval 0x70000834#32 = some 0x40000000#32
    ∧ eval 0x700007CF#32 = some 0x40000000#32 := by decide
theorem test_yearUnpack_largest : eval 0x780000FF#32 = some 0x00000875#32 := by decide
theorem test_bitWr_clears : eval 0x8010003A#32 = some 0x0000002A#32 := by decide
theorem test_bitTest_any_bit : eval 0x88810001#32 = some 0x08000000#32 ∧ eval 0x880000FF#32 = some 0x00000000#32 := by decide
theorem test_ctrlSqwfs_replaces : eval 0x900100FF#32 = some 0x000000FD#32 ∧ eval 0x90040080#32 = some 0x80000000#32 := by
  decide
theorem test_trimPack_negative :
    eval 0x980000FE#32 = some 0x00000082#32 ∧ eval 0x98000080#32 = some 0x00000080#32
    ∧ eval 0x98000081#32 = some 0x000000FF#32 := by decide
theorem test_almwkPack_fields : eval 0xA1020006#32 = some 0x000000A6#32 := by decide
theorem test_almwkPack_illegal_before_invalid :
    eval 0xA0050000#32 = some 0x80000000#32 ∧ eval 0xA1070008#32 = some 0x40000000#32 := by decide
theorem test_pfWkdayUnpack : eval 0xA800009F#32 = some 0x00000004#32 := by decide
theorem test_pfMonthUnpack_unchecked_nibble : eval 0xB000003A#32 = some 0x00000014#32 := by decide
theorem test_eewpPack_all : eval 0xB8000003#32 = some 0x0000000C#32 ∧ eval 0xB8000004#32 = some 0x80000000#32 := by decide

/-! ## Constants, assembler, requester -/

theorem test_opcodeCount : Spec.rows.length = Config.opcodeCount := by decide

/-- D16: the initial Config is OUT at High, every other bit 0. -/
theorem test_initial_config_is_out_high : Config.initialContext.config = DeviceFlag.out.mask
    ∧ PinLevel.high.bit = true := by decide

theorem test_assemble_refuses : assemble .bcdEnc [.num 256] = none ∧ assemble .hourNorm [.num 25, .hour .h24 5] = none
    ∧ assemble .almwkPack [.num 1, .num 5, .num 0] = some 0xA0050001#32 := by decide

/-- P1. -/
theorem test_program_p1 :
    (packDateTime { Config.initialContext with isEnabled := true }
      ⟨2018#16, 8#8, 13#8, 2#8, ⟨.h24, 23#8⟩, 59#8, 58#8⟩).map TimeRegs.payload
      = some [0x00#8, 0xD8#8, 0x59#8, 0x23#8, 0x02#8, 0x13#8, 0x08#8, 0x18#8] := by decide

/-- P2. -/
theorem test_program_p2 : unpackDateTime ⟨0xD8#8, 0x59#8, 0x71#8, 0x2A#8, 0x13#8, 0x28#8, 0x18#8⟩
    = some ⟨2018#16, 8#8, 13#8, 2#8, ⟨.pm, 11#8⟩, 59#8, 58#8⟩ := by decide

/-- P3. -/
theorem test_program_p3 :
    alarmWrites Config.initialContext .alarm1 ⟨12#8, 25#8, 3#8, ⟨.h24, 23#8⟩, 30#8, 0#8⟩ .all true 0x15#8
      = some [[0x0D#8, 0x95#8], [0x11#8, 0x00#8, 0x30#8, 0x71#8, 0xF3#8, 0x25#8, 0x12#8]] := by decide

/-- P4. -/
theorem test_program_p4 : unpackPowerFail ⟨0x45#8, 0x71#8, 0x31#8, 0xA8#8⟩
    = some ⟨8#8, 31#8, 5#8, ⟨.pm, 11#8⟩, 45#8⟩ := by decide

/-- P6, first operation. -/
theorem test_program_p6 :
    packDateTime ⟨true, true, false, false, 0x80#8⟩ ⟨2100#16, 1#8, 1#8, 6#8, ⟨.am, 12#8⟩, 0#8, 0#8⟩ = none := by decide

/-! ## Witnesses: for each statement with hypotheses, values that meet those of every clause, at the ends of ranges -/

theorem test_witness_BcdEncAnswersPackedBcd :
    (State.reset.present 0x080000FF#32).req &&& 0xFFFFFF00#32 = 0x08000000#32 := by decide
theorem test_witness_BcdDecAnswersDecimal :
    (State.reset.present 0x100000FF#32).req &&& 0xFFFFFF00#32 = 0x10000000#32 := by decide
theorem test_witness_HourEncAnswersHoursByte :
    (23#8 : Byte).toNat ≤ 23 ∧ (1 ≤ (1#8 : Byte).toNat ∧ (1#8 : Byte).toNat ≤ 12)
    ∧ (1 ≤ (12#8 : Byte).toNat ∧ (12#8 : Byte).toNat ≤ 12)
    ∧ (TagField.h24 ≠ .none ∧ ¬ Spec.validHour (Spec.tagNumber .h24) (24#8 : Byte).toNat)
    ∧ (TagField.am ≠ .none ∧ ¬ Spec.validHour (Spec.tagNumber .am) (0#8 : Byte).toNat)
    ∧ (TagField.pm ≠ .none ∧ ¬ Spec.validHour (Spec.tagNumber .pm) (13#8 : Byte).toNat)
    ∧ (State.reset.present 0x1C00000D#32).req &&& 0xF9FFFF00#32 = 0x18000000#32
    ∧ (State.reset.present 0x1E00000D#32).req &&& 0xF9FFFF00#32 = 0x18000000#32 := by decide
theorem test_witness_HourDecAnswersTaggedHour :
    (State.reset.present 0x20000072#32).req &&& 0xFFFFFF00#32 = 0x20000000#32 := by decide
theorem test_witness_HourNormAnswersHourInMode :
    Spec.validHour (Spec.tagNumber .h24) (23#8 : Byte).toNat ∧ Spec.validHour (Spec.tagNumber .am) (12#8 : Byte).toNat
    ∧ Spec.validHour (Spec.tagNumber .pm) (1#8 : Byte).toNat
    ∧ (TagField.h24 ≠ .none ∧ ¬ Spec.validHour (Spec.tagNumber .h24) (24#8 : Byte).toNat)
    ∧ (TagField.pm ≠ .none ∧ ¬ Spec.validHour (Spec.tagNumber .pm) (0#8 : Byte).toNat)
    ∧ (State.reset.present 0x2D00000B#32).req &&& 0xF8FFFF00#32 = 0x28000000#32
    ∧ (State.reset.present 0x2F00000B#32).req &&& 0xF8FFFF00#32 = 0x28000000#32 := by decide
theorem test_witness_SecPackAnswersSecondsByte :
    (59#8 : Byte).toNat < 60 ∧ 60 ≤ (60#8 : Byte).toNat
    ∧ (State.reset.present 0x3100003B#32).req &&& 0xFEFFFF00#32 = 0x30000000#32
    ∧ (State.reset.present 0x3000003C#32).req &&& 0xFEFFFF00#32 = 0x30000000#32 := by decide
theorem test_witness_SecUnpackAnswersSeconds :
    (State.reset.present 0x380000D8#32).req &&& 0xFFFFFF00#32 = 0x38000000#32 := by decide
theorem test_witness_MinPackAnswersMinutesByte :
    (59#8 : Byte).toNat < 60 ∧ 60 ≤ (60#8 : Byte).toNat
    ∧ (State.reset.present 0x4000003B#32).req &&& 0xFFFFFF00#32 = 0x40000000#32 := by decide
theorem test_witness_WkdayPackAnswersWeekdayByte :
    (1 ≤ (1#8 : Byte).toNat ∧ (1#8 : Byte).toNat ≤ 7) ∧ (1 ≤ (7#8 : Byte).toNat ∧ (7#8 : Byte).toNat ≤ 7)
    ∧ ((0#8 : Byte).toNat < 1 ∨ 7 < (0#8 : Byte).toNat) ∧ ((8#8 : Byte).toNat < 1 ∨ 7 < (8#8 : Byte).toNat)
    ∧ (State.reset.present 0x49000002#32).req &&& 0xFEFFFF00#32 = 0x48000000#32 := by decide
theorem test_witness_WkdayUnpackAnswersWeekday :
    (State.reset.present 0x5000002A#32).req &&& 0xFFFFFF00#32 = 0x50000000#32 := by decide
theorem test_witness_DayPackAnswersDayByte :
    (1 ≤ (1#8 : Byte).toNat ∧ (1#8 : Byte).toNat ≤ 31) ∧ (1 ≤ (31#8 : Byte).toNat ∧ (31#8 : Byte).toNat ≤ 31)
    ∧ ((0#8 : Byte).toNat < 1 ∨ 31 < (0#8 : Byte).toNat) ∧ ((32#8 : Byte).toNat < 1 ∨ 31 < (32#8 : Byte).toNat)
    ∧ (State.reset.present 0x5800000D#32).req &&& 0xFFFFFF00#32 = 0x58000000#32 := by decide
theorem test_witness_MonthPackAnswersMonthByte :
    (1 ≤ (1#8 : Byte).toNat ∧ (1#8 : Byte).toNat ≤ 12) ∧ (1 ≤ (12#8 : Byte).toNat ∧ (12#8 : Byte).toNat ≤ 12)
    ∧ ((0#8 : Byte).toNat < 1 ∨ 12 < (0#8 : Byte).toNat) ∧ ((13#8 : Byte).toNat < 1 ∨ 12 < (13#8 : Byte).toNat)
    ∧ (State.reset.present 0x60000008#32).req &&& 0xFFFFFF00#32 = 0x60000000#32 := by decide
theorem test_witness_MonthUnpackAnswersMonth :
    (State.reset.present 0x68000028#32).req &&& 0xFFFFFF00#32 = 0x68000000#32 := by decide
theorem test_witness_YearPackAnswersYearByte :
    (2000 ≤ (2000#16 : Half).toNat ∧ (2000#16 : Half).toNat ≤ 2099)
    ∧ (2000 ≤ (2099#16 : Half).toNat ∧ (2099#16 : Half).toNat ≤ 2099)
    ∧ ((1999#16 : Half).toNat < 2000 ∨ 2099 < (1999#16 : Half).toNat)
    ∧ ((2100#16 : Half).toNat < 2000 ∨ 2099 < (2100#16 : Half).toNat)
    ∧ (State.reset.present 0x700007E2#32).req &&& 0xFFFF0000#32 = 0x70000000#32 := by decide
theorem test_witness_YearUnpackAnswersYear :
    (State.reset.present 0x780000FF#32).req &&& 0xFFFFFF00#32 = 0x78000000#32 := by decide
theorem test_witness_BitWrAnswersMaskedWrite :
    (State.reset.present 0x81FF005A#32).req &&& 0xFE00FF00#32 = 0x80000000#32
    ∧ (State.reset.present 0x80FF005A#32).req &&& 0xFE00FF00#32 = 0x80000000#32 := by decide
theorem test_witness_BitTestAnswersFlag :
    (State.reset.present 0x88810001#32).req &&& 0xFF00FF00#32 = 0x88000000#32 := by decide
theorem test_witness_CtrlSqwfsInsertsFrequencyCode :
    (State.reset.present 0x90030080#32).req &&& 0xFFFCFF00#32 = 0x90000000#32
    ∧ (Spec.opOf (State.reset.present 0x90040080#32).req = 0x12
      ∧ 3 < Spec.bOf (State.reset.present 0x90040080#32).req) := by decide
theorem test_witness_TrimPackAnswersTrimByte :
    (State.reset.present 0x98000080#32).req &&& 0xFFFFFF00#32 = 0x98000000#32 := by decide
theorem test_witness_AlmwkPackAnswersAlarmWeekdayByte :
    (MatchCode.all ≠ .unused5 ∧ MatchCode.all ≠ .unused6 ∧ 1 ≤ (7#8 : Byte).toNat ∧ (7#8 : Byte).toNat ≤ 7)
    ∧ (MatchCode.day ≠ .unused5 ∧ MatchCode.day ≠ .unused6 ∧ 1 ≤ (1#8 : Byte).toNat ∧ (1#8 : Byte).toNat ≤ 7)
    ∧ ((8#8 : Byte).toNat < 1 ∨ 7 < (8#8 : Byte).toNat) ∧ ((0#8 : Byte).toNat < 1 ∨ 7 < (0#8 : Byte).toNat)
    ∧ (MatchCode.unused6 = .unused5 ∨ MatchCode.unused6 = .unused6)
    ∧ (State.reset.present 0xA1070003#32).req &&& 0xFEF8FF00#32 = 0xA0000000#32
    ∧ (State.reset.present 0xA0050000#32).req &&& 0xFEF8FF00#32 = 0xA0000000#32
    ∧ (Spec.opOf (State.reset.present 0xA0080003#32).req = 0x14
      ∧ 7 < Spec.bOf (State.reset.present 0xA0080003#32).req) := by decide
theorem test_witness_PfWkdayUnpackAnswersTopBits :
    (State.reset.present 0xA80000FF#32).req &&& 0xFFFFFF00#32 = 0xA8000000#32 := by decide
theorem test_witness_PfMonthUnpackAnswersMonth :
    (State.reset.present 0xB00000FF#32).req &&& 0xFFFFFF00#32 = 0xB0000000#32 := by decide
theorem test_witness_EewpPackAnswersProtectionByte :
    (State.reset.present 0xB8000003#32).req &&& 0xFFFFFFFC#32 = 0xB8000000#32
    ∧ (Spec.opOf (State.reset.present 0xB8000004#32).req = 0x17
      ∧ 3 < Spec.argOf (State.reset.present 0xB8000004#32).req) := by decide

theorem test_witness_StepRunsDecodedInstruction :
    decode (State.reset.present 0x0800002A#32).req = .ok (.bcdEnc 42#8) := by decide
theorem test_witness_DecodeOfEncodeIsInstruction : (Instr.hourNorm true .pm 255#8).wf = true := by decide
theorem test_witness_DecodedWordIsEncoding : decode 0xA1070003#32 = .ok (.almwkPack 3#8 .all true) := by decide
theorem test_witness_StatusFollowsCheckOrder :
    Spec.illegal (State.reset.present 0x1E000063#32).req ∧ Spec.illegal (State.reset.present 0x00000000#32).req
    ∧ (¬ Spec.illegal (State.reset.present 0xA1070008#32).req ∧ Spec.outOfRange (State.reset.present 0xA1070008#32).req)
    ∧ (¬ Spec.illegal (State.reset.present 0xA1070007#32).req
      ∧ ¬ Spec.outOfRange (State.reset.present 0xA1070007#32).req) := by
  refine ⟨.inr (.inl (by decide)), .inl ?_, ⟨?_, .inr (.inr (.inl (by decide)))⟩, ?_, ?_⟩
  · simp [Spec.rows, State.present]
  · simp [Spec.illegal, Spec.rows, State.present, Spec.opOf, Spec.bOf]
  · simp [Spec.illegal, Spec.rows, State.present, Spec.opOf, Spec.bOf]
  · simp [Spec.outOfRange, State.present, Spec.opOf, Spec.aOf]
theorem test_witness_ExecRaisesExactlyOutOfRange :
    (Instr.almwkPack 0#8 .unused5 false).wf = false
    ∧ ((Instr.secPack 60#8 true).wf = true ∧ Spec.operandOutOfRange (.secPack 60#8 true))
    ∧ ((Instr.secPack 59#8 true).wf = true ∧ ¬ Spec.operandOutOfRange (.secPack 59#8 true)) := by
  unfold Spec.operandOutOfRange
  decide
theorem test_witness_ResponseDependsOnRequestAlone :
    step (State.reset.present 0x4000003C#32) = .next ⟨0x4000003C#32, 0x40000000#32⟩ := rfl
theorem test_witness_StepGivesFormedSettledState :
    step ⟨0x0800002A#32, 0xFFFFFFFF#32⟩ = .next ⟨0x0800002A#32, 0x00000042#32⟩ := rfl
theorem test_witness_ResultFitsItsField :
    step ⟨0x080000FF#32, 0x00000000#32⟩ = .next ⟨0x080000FF#32, 0x00000095#32⟩ ∧ Spec.opOf 0x080000FF#32 ≠ 0x0F := by
  exact ⟨rfl, by decide⟩
theorem test_witness_TagAndFlagOfResponse :
    (step ⟨0x18000017#32, 0#32⟩ = .next ⟨0x18000017#32, 0x08000023#32⟩ ∧ rspStatus 0x08000023#32 = 0b00#2
      ∧ Spec.opOf 0x18000017#32 = 0x03)
    ∧ (step ⟨0x20000072#32, 0#32⟩ = .next ⟨0x20000072#32, 0x2000000C#32⟩ ∧ Spec.opOf 0x20000072#32 = 0x04)
    ∧ (step ⟨0x28000017#32, 0#32⟩ = .next ⟨0x28000017#32, 0x2000000B#32⟩ ∧ Spec.opOf 0x28000017#32 = 0x05)
    ∧ (step ⟨0x88200022#32, 0#32⟩ = .next ⟨0x88200022#32, 0x08000000#32⟩ ∧ Spec.opOf 0x88200022#32 = 0x11)
    ∧ (step ⟨0x0800002A#32, 0#32⟩ = .next ⟨0x0800002A#32, 0x00000042#32⟩ ∧ Spec.opOf 0x0800002A#32 ≠ 0x03
      ∧ Spec.opOf 0x0800002A#32 ≠ 0x04 ∧ Spec.opOf 0x0800002A#32 ≠ 0x05 ∧ Spec.opOf 0x0800002A#32 ≠ 0x11) := by
  refine ⟨⟨rfl, ?_, ?_⟩, ⟨rfl, ?_⟩, ⟨rfl, ?_⟩, ⟨rfl, ?_⟩, rfl, ?_⟩ <;> decide
theorem test_witness_BcdEncLanes :
    (99#8 : Byte).toNat ≤ 99 ∧ 100 ≤ (100#8 : Byte).toNat ∧ (159#8 : Byte).toNat ≤ 159 := by decide
theorem test_witness_BcdCodecLaws :
    (99#8 : Byte).toNat ≤ 99 ∧ (10 ≤ (0xA0#8 : Byte).toNat / 16 ∧ (0xA0#8 : Byte).toNat % 16 ≤ 9)
    ∧ ((0x99#8 : Byte).toNat / 16 ≤ 9 ∧ (0x99#8 : Byte).toNat % 16 ≤ 9)
    ∧ askByte (.bcdEnc 99#8) = askByte (.bcdEnc 99#8) := by decide
theorem test_witness_HourDecIsTotalAndBounded :
    askHour (.hourDec 0xBF#8) = some ⟨.h24, 125#8⟩ ∧ askHour (.hourDec 0xFF#8) = some ⟨.pm, 105#8⟩
    ∧ HourTag.pm ≠ .h24 := by decide
theorem test_witness_HourNormTable :
    (1 ≤ (11#8 : Byte).toNat ∧ (11#8 : Byte).toNat ≤ 11) ∧ (13 ≤ (23#8 : Byte).toNat ∧ (23#8 : Byte).toNat ≤ 23)
    ∧ (13 ≤ (13#8 : Byte).toNat ∧ (13#8 : Byte).toNat ≤ 23) := by decide
theorem test_witness_HourCodecLaws :
    Spec.hourValid ⟨.h24, 23#8⟩ ∧ (23#8 : Byte).toNat ≤ 23 ∧ (Spec.hourValid ⟨.pm, 12#8⟩ ∧ HourTag.pm ≠ .h24)
    ∧ Spec.hourValid ⟨.am, 1#8⟩ ∧ askByte (.hourEnc .am 1#8) = some 0x41#8
    ∧ askByte (.hourEnc .h24 23#8) = some 0x23#8 ∧ askByte (.hourEnc .pm 12#8) = some 0x72#8 := by decide
theorem test_witness_TrimPackIsSignMagnitude :
    ((0x81#8 : Byte).toInt < 0 ∧ (0x81#8 : Byte).toInt ≠ -128) ∧ 0 ≤ (0x7F#8 : Byte).toInt
    ∧ askByte (.trimPack 0x81#8) = askByte (.trimPack 0x81#8) := by decide
theorem test_witness_BitWrKeepsBitsOutsideMask : 7 < 8 := by decide
theorem test_witness_UnpackOfPackIsField :
    (59#8 : Byte).toNat ≤ 59 ∧ (1 ≤ (7#8 : Byte).toNat ∧ (7#8 : Byte).toNat ≤ 7)
    ∧ (1 ≤ (31#8 : Byte).toNat ∧ (31#8 : Byte).toNat ≤ 31) ∧ (1 ≤ (12#8 : Byte).toNat ∧ (12#8 : Byte).toNat ≤ 12)
    ∧ (2000 ≤ (2099#16 : Half).toNat ∧ (2099#16 : Half).toNat ≤ 2099) := by decide
theorem test_witness_AssemblerFitsOperands :
    Op.bcdEnc.format = .u8 ∧ Op.secPack.format = .u8f
    ∧ assemble .bcdEnc [.num 255] = some (Op.bcdEnc.matchWord + 255#32) ∧ assemble .bcdEnc [.num 256] = none := by decide
theorem test_witness_PackDateTimeGivesPayload :
    Spec.dateTimeValid ⟨2099#16, 12#8, 31#8, 7#8, ⟨.pm, 12#8⟩, 59#8, 59#8⟩
    ∧ ¬ Spec.dateTimeValid ⟨2100#16, 12#8, 31#8, 7#8, ⟨.pm, 12#8⟩, 59#8, 59#8⟩ := by decide
theorem test_witness_UnpackOfPackDateTimeIsDateTime :
    Spec.dateTimeValid ⟨2000#16, 1#8, 1#8, 1#8, ⟨.h24, 0#8⟩, 0#8, 0#8⟩ := by decide
theorem test_witness_AlarmHourIsNormalisedHour : Spec.hourValid ⟨.h24, 0#8⟩ ∧ Spec.hourValid ⟨.am, 12#8⟩ := by decide
theorem test_witness_PackAlarmGivesPayload :
    (Spec.alarmValid ⟨12#8, 31#8, 7#8, ⟨.pm, 12#8⟩, 59#8, 59#8⟩ ∧ MatchCode.all ≠ .unused5 ∧ MatchCode.all ≠ .unused6)
    ∧ ¬ Spec.alarmValid ⟨13#8, 31#8, 7#8, ⟨.pm, 12#8⟩, 59#8, 59#8⟩ ∧ MatchCode.unused5 = .unused5 := by decide
theorem test_witness_AlarmOnePolarityRewritesAlarmZero :
    packAlarm Config.initialContext ⟨12#8, 25#8, 3#8, ⟨.h24, 23#8⟩, 30#8, 0#8⟩ .all true
      = some ⟨0x00#8, 0x30#8, 0x71#8, 0xF3#8, 0x25#8, 0x12#8⟩
    ∧ true ≠ Config.initialContext.alarmPolarityHigh
    ∧ packAlarm Config.initialContext ⟨12#8, 25#8, 3#8, ⟨.h24, 23#8⟩, 30#8, 0#8⟩ .all false
      = some ⟨0x00#8, 0x30#8, 0x71#8, 0x73#8, 0x25#8, 0x12#8⟩
    ∧ false = Config.initialContext.alarmPolarityHigh
    ∧ packAlarm Config.initialContext ⟨13#8, 25#8, 3#8, ⟨.h24, 23#8⟩, 30#8, 0#8⟩ .all true = none := by decide
theorem test_witness_InitialContextValues : Spec.hourValid ⟨.h24, 23#8⟩ ∧ Spec.hourValid ⟨.h24, 0#8⟩ := by decide

end Sys2Proof.Tests
end

/-! ## What every evaluation keeps (10_state.md)

One key lemma, `exec_answers`: for each operation there is one response of R88's form which `exec` puts on the output
port from every state. The statements about `step` follow from it and from the decoder's two outcomes. -/

namespace Sys2Proof.Machine

/-! ### Response words have R88's form -/

/-- An `ok` response has R88's form where its RTAG names a variant. -/
theorem responseForm_ok {result : Half} {rtag : BitVec 2} {rflag : Bool} (h : rtag ≠ 0b11#2) :
    responseForm (Response.ok result rtag rflag).toWord = true := by
  have hzero : (Response.ok result rtag rflag).toWord.extractLsb' 16 11 = 0#11 := by
    ext i hi
    interval_cases i <;> simp [Response.toWord]
  simp [responseForm, rspStatus_ok, rspTag_ok, hzero, h]

theorem responseForm_raised (cause : Cause) : responseForm (Response.raised cause).toWord = true := by
  cases cause <;> decide

theorem hourTagCode_ne_none (t : HourTag) : hourTagCode t ≠ 0b11#2 := by cases t <;> decide

/-! ### One response from every state -/

/-- The evaluation puts one response on the output port, the same from every state and of R88's form. -/
def Answers (m : State → Host.Outcome State Fault Refusal) : Prop :=
  ∃ r : Response, responseForm r.toWord = true ∧ ∀ s, m s = .next (s.respond r)

theorem answer_answers (result : Half) {rtag : BitVec 2} (rflag : Bool) (h : rtag ≠ 0b11#2) :
    Answers (answer result rtag rflag) :=
  ⟨.ok result rtag rflag, responseForm_ok h, answer_eq result rtag rflag⟩

theorem complete_answers (result : Half) : Answers (complete result) := answer_answers result false (by decide)

theorem completeHour_answers (th : HourTag × Nat) : Answers (completeHour th) :=
  answer_answers (half th.2) (hourFlag th.1) (hourTagCode_ne_none th.1)

theorem raise_answers (cause : Cause) : Answers (raise cause) :=
  ⟨.raised cause, responseForm_raised cause, raise_eq cause⟩

/-- A range check is made on the operands alone, so each side of it may answer by its own response. -/
theorem Answers.ite {c : Prop} [Decidable c] {m n : State → Host.Outcome State Fault Refusal}
    (hm : Answers m) (hn : Answers n) : Answers (fun s => if c then m s else n s) := by
  by_cases h : c
  · simpa only [if_pos h] using hm
  · simpa only [if_neg h] using hn

theorem execHourEnc_answers (tag : TagField) (a : Byte) : Answers (execHourEnc tag a) := by
  unfold execHourEnc
  cases hourTag? tag with
  | none => exact raise_answers _
  | some t => exact .ite (answer_answers _ _ (by decide)) (raise_answers _)

theorem execHourNorm_answers (to24 : Bool) (tag : TagField) (a : Byte) : Answers (execHourNorm to24 tag a) := by
  unfold execHourNorm
  cases hourTag? tag with
  | none => exact raise_answers _
  | some t => exact .ite (completeHour_answers _) (raise_answers _)

/-- Every operation answers, well-formed or not (R10, R20, R98). -/
theorem exec_answers (i : Instr) : Answers (exec i) := by
  cases i with
  | hourEnc tag a => exact execHourEnc_answers tag a
  | hourNorm to24 tag a => exact execHourNorm_answers to24 tag a
  | hourDec a => exact completeHour_answers _
  | bitTest a mask => exact answer_answers _ _ (by decide)
  | secPack | minPack | wkdayPack | dayPack | monthPack | yearPack =>
    exact .ite (raise_answers _) (complete_answers _)
  | almwkPack a code pol => exact .ite (raise_answers _) (.ite (raise_answers _) (complete_answers _))
  | bcdEnc | bcdDec | secUnpack | wkdayUnpack | monthUnpack | yearUnpack | bitWr | ctrlSqwfs | trimPack
  | pfWkdayUnpack | pfMonthUnpack | eewpPack => exact complete_answers _

/-! ### The step -/

theorem step_of_decode_ok {s : State} {i : Instr} (h : decode s.req = .ok i) : step s = exec i s := by
  simp only [step, h]

theorem step_of_decode_error {s : State} {why : Illegal} (h : decode s.req = .error why) :
    step s = .next (s.respond (.raised .illegalRequest)) := by
  simp only [step, h, raise_eq]

/-- A request word has one response, of R88's form, whatever state it is presented to (R21). -/
theorem step_answers (w : Word) :
    ∃ r : Response, responseForm r.toWord = true ∧ ∀ s : State, s.req = w → step s = .next (s.respond r) := by
  rcases h : decode w with why | i
  · exact ⟨.raised .illegalRequest, responseForm_raised _, fun s hs => step_of_decode_error (hs ▸ h)⟩
  · obtain ⟨r, hform, hexec⟩ := exec_answers i
    exact ⟨r, hform, fun s hs => (step_of_decode_ok (hs ▸ h)).trans (hexec s)⟩

/-- States with the same request word on the input port step to the same state. -/
theorem step_congr {s t : State} (h : s.req = t.req) : step s = step t := by
  obtain ⟨r, -, hstep⟩ := step_answers t.req
  rw [hstep s h, hstep t rfl, respond_congr h]

/-- All a step can do: it answers the request by a response of R88's form, and would give it again. -/
theorem step_next {s t : State} (h : step s = .next t) :
    ∃ r : Response, responseForm r.toWord = true ∧ t = s.respond r ∧ t.settled := by
  obtain ⟨r, hform, hstep⟩ := step_answers s.req
  rw [hstep s rfl] at h
  cases h
  exact ⟨r, hform, rfl, hstep (s.respond r) (respond_req s r)⟩

/-! ### The statements -/

/-- Settles O33, by the inversion of a step. -/
theorem stepGivesFormedSettledState : Obligations.StepGivesFormedSettledState := by
  intro s t h
  obtain ⟨r, hform, rfl, hagain⟩ := step_next h
  exact ⟨hform, hagain, respond_req s r⟩

/-- Settles O31: every operation and every request word has a response, and answering writes the output port only. -/
theorem evaluationWritesResponseOnly : Obligations.EvaluationWritesResponseOnly := by
  refine ⟨fun i s => ?_, fun s => ?_⟩
  · obtain ⟨r, -, hexec⟩ := exec_answers i
    exact ⟨r.toWord, hexec s⟩
  · obtain ⟨r, -, hstep⟩ := step_answers s.req
    exact ⟨r.toWord, hstep s rfl⟩

/-- Settles O32: the presented request is all a step reads. -/
theorem responseDependsOnRequestAlone : Obligations.ResponseDependsOnRequestAlone :=
  ⟨fun _ _ => step_congr rfl, fun _ _ _ _ _ => step_congr rfl⟩

/-- Settles O34: the all-zero request has no assigned opcode, and the port holds the answer to it. -/
theorem resetStateIsFormedAndSettled : Obligations.ResetStateIsFormedAndSettled := by
  have hdecode : decode State.reset.req = .error .unassignedOpcode := by decide
  exact ⟨responseForm_raised .illegalRequest, step_of_decode_error hdecode, reset_req, reset_rsp⟩

end Sys2Proof.Machine


/-! ## The register map (20_memory.md)

The addresses and masks are constants of the model, each list compared by evaluation; a window is the half-open range of
its two bounds. -/

namespace Sys2Proof.Machine

/-- A window holds its first address and not its stop. -/
@[simp] theorem Window.holds_iff (w : Window) (a : Byte) :
    w.holds a = true ↔ w.first ≤ a.toNat ∧ a.toNat < w.stop := by
  simp only [Window.holds, Bool.and_eq_true, decide_eq_true_eq]

/-- A window that starts at address 0 has no lower bound to check. -/
theorem Window.holds_iff_of_first_eq_zero {w : Window} (h : w.first = 0) (a : Byte) :
    w.holds a = true ↔ a.toNat < w.stop := by
  simp only [Window.holds_iff, h, Nat.zero_le, true_and]

/-- The six named flags of CONTROL take the bits above the frequency code (R31). -/
theorem control_flag_masks_or :
    DeviceFlag.out.mask ||| DeviceFlag.sqwen.mask ||| DeviceFlag.alm1en.mask ||| DeviceFlag.alm0en.mask
      ||| DeviceFlag.extosc.mask ||| DeviceFlag.crstrim.mask = 0xFC#8 := by decide

/-- Settles O55: the lists of addresses are evaluated, and each window is its range. -/
theorem registerMapAddresses : Obligations.RegisterMapAddresses := by
  refine ⟨?timekeeping, ?alarm0, ?alarm1, ?powerDown, ?powerUp, ?eeStatus, ?sram, ?eeprom, ?protectedEeprom,
    control_flag_masks_or⟩
  case timekeeping | alarm0 | alarm1 | powerDown | powerUp | eeStatus => rfl
  case sram => exact sramWindow.holds_iff
  case eeprom => exact Window.holds_iff_of_first_eq_zero rfl
  case protectedEeprom => exact protectedEepromWindow.holds_iff

end Sys2Proof.Machine


/-! ## Request and response encoding (30_encoding.md): the request word

Two facts carry this part. The fields of an instruction read back as its operands (`instrOf_fields`), so decoding undoes
encoding; and a word that a row fits has 0 in each reserved bit (`reserved_eq_zero`), so it is the request word of the
instruction it spells, well-formed or not (`encode_instrOf_of_match`). -/

namespace Sys2Proof

/-! ### Operands read back from fields -/

/-- The low bits of a widened operand are the operand. -/
@[simp] theorem extractLsb'_setWidth_self {k n : Nat} (x : BitVec k) (h : k ≤ n) :
    (x.setWidth n).extractLsb' 0 k = x := by
  rw [BitVec.extractLsb'_setWidth_of_le (by omega), BitVec.extractLsb'_eq_self]

@[simp] theorem byteA_setWidth (op : BitVec 5) (tag : BitVec 2) (f : Bool) (b a : Byte) :
    Fields.byteA ⟨op, tag, f, b, a.setWidth 16⟩ = a :=
  extractLsb'_setWidth_self a (by decide)

/-- The fields of an instruction's request read back as its operation and operands (R82, R92). -/
theorem instrOf_fields (i : Instr) : instrOf i.op i.fields = i := by
  cases i <;> simp [instrOf, Instr.op, Instr.fields, byteFields]

/-- An instruction's request carries the OP of its row (R84). -/
theorem fields_op (i : Instr) : i.fields.op = i.op.code := by cases i <;> rfl

/-- An instruction's request word fits its own row of the opcode map (R82, R84). -/
theorem encode_match (i : Instr) : encode i &&& i.op.format.mask = i.op.matchWord := by
  cases i with
  | bcdEnc | bcdDec | hourDec | secUnpack | minPack | wkdayUnpack | dayPack | monthPack | monthUnpack | yearUnpack
  | trimPack | pfWkdayUnpack | pfMonthUnpack => exact Laws.SpellsItsRow.byteFields_and_mask _ _ rfl
  | hourEnc tag a => exact Laws.SpellsItsRow.hourEnc tag a
  | hourNorm to24 tag a => exact Laws.SpellsItsRow.hourNorm to24 tag a
  | secPack a st => exact Laws.SpellsItsRow.secPack a st
  | wkdayPack a vbaten => exact Laws.SpellsItsRow.wkdayPack a vbaten
  | yearPack y => exact Laws.SpellsItsRow.yearPack y
  | bitWr a mask v => exact Laws.SpellsItsRow.bitWr a mask v
  | bitTest a mask => exact Laws.SpellsItsRow.bitTest a mask
  | ctrlSqwfs a code => exact Laws.SpellsItsRow.ctrlSqwfs a code
  | almwkPack a code pol => exact Laws.SpellsItsRow.almwkPack a code pol
  | eewpPack level => exact Laws.SpellsItsRow.eewpPack level

/-- The request word of an instruction spells that instruction, well-formed or not. -/
theorem instrOf_encode (i : Instr) : instrOf i.op (fieldsOf (encode i)) = i := by
  rw [encode, fieldsOf_toWord, instrOf_fields]

/-- Settles O25: the request word fits its row, its operands read back, and they pass R86 and R87. -/
theorem decodeOfEncodeIsInstruction : Obligations.DecodeOfEncodeIsInstruction := by
  intro i hwf
  have hdecode := decode_of_match (encode_match i) (by rwa [instrOf_encode])
  rwa [instrOf_encode] at hdecode

/-! ### No bit of a request word is ignored -/

/-- Masking a word masks each of its fields. -/
theorem fieldsOf_and (v w : Word) :
    fieldsOf (v &&& w) = ⟨(fieldsOf v).op &&& (fieldsOf w).op, (fieldsOf v).tag &&& (fieldsOf w).tag,
      (fieldsOf v).f && (fieldsOf w).f, (fieldsOf v).b &&& (fieldsOf w).b, (fieldsOf v).arg &&& (fieldsOf w).arg⟩ := by
  simp only [fieldsOf, BitVec.extractLsb'_and, BitVec.getLsbD_and]

/-- A match word is its OP code with every other field 0 (R82). -/
theorem fieldsOf_matchWord (op : Op) : fieldsOf op.matchWord = ⟨op.code, 0#2, false, 0#8, 0#16⟩ := by
  cases op <;> decide

/-- A word that a row fits has 0 in each bit that the row's format reserves (R82, R83). -/
theorem reserved_eq_zero {w : Word} {op : Op} (hm : w &&& op.format.mask = op.matchWord) :
    (fieldsOf w).tag &&& (fieldsOf op.format.mask).tag = 0#2
    ∧ ((fieldsOf w).f && (fieldsOf op.format.mask).f) = false
    ∧ (fieldsOf w).b &&& (fieldsOf op.format.mask).b = 0#8
    ∧ (fieldsOf w).arg &&& (fieldsOf op.format.mask).arg = 0#16 := by
  have h := congrArg fieldsOf hm
  rw [fieldsOf_and, fieldsOf_matchWord, Fields.mk.injEq] at h
  exact h.2

/-- A field that is reserved as a whole is 0. -/
theorem zero_eq_of_and_allOnes {n : Nat} {x : BitVec n} (h : x &&& BitVec.allOnes n = 0#n) : 0#n = x := by
  rw [← h, BitVec.and_allOnes]

theorem false_eq_of_and_true {f : Bool} (h : (f && true) = false) : false = f := by
  rw [← h, Bool.and_true]

/-- A field whose bits from `k` up are reserved is its low `k` bits, widened. -/
theorem setWidth_extractLsb'_of_and {n : Nat} (k : Nat) {x : BitVec n} (h : x &&& BitVec.allOnes n <<< k = 0#n) :
    (x.extractLsb' 0 k).setWidth n = x := by
  apply BitVec.eq_of_getLsbD_eq
  intro j hj
  have hbit := congrArg (·.getLsbD j) h
  simp only [BitVec.getLsbD_and, BitVec.getLsbD_shiftLeft, BitVec.getLsbD_allOnes, BitVec.getLsbD_zero] at hbit
  simp only [BitVec.getLsbD_setWidth, BitVec.getLsbD_extractLsb', Nat.zero_add]
  by_cases hk : j < k
  · simp [hj, hk]
  · simpa [hj, hk, show j - k < n by omega] using hbit.symm

/-- The operands that are read from a row's word, put back into their fields, give all of its fields: what the format
does not read is reserved (R82, R83). -/
theorem fields_instrOf_of_match {w : Word} {op : Op} (hm : w &&& op.format.mask = op.matchWord) :
    (instrOf op (fieldsOf w)).fields = fieldsOf w := by
  have hop := (opCode_of_match hm).symm
  obtain ⟨htag, hf, hb, harg⟩ := reserved_eq_zero hm
  generalize fieldsOf w = x at hop htag hf hb harg ⊢
  obtain ⟨code, tag, f, b, arg⟩ := x
  apply (Fields.mk.injEq ..).mpr
  cases op with
  | bcdEnc | bcdDec | hourDec | secUnpack | minPack | wkdayUnpack | dayPack | monthPack | monthUnpack | yearUnpack
  | trimPack | pfWkdayUnpack | pfMonthUnpack =>
    exact ⟨hop, zero_eq_of_and_allOnes htag, false_eq_of_and_true hf, zero_eq_of_and_allOnes hb,
      setWidth_extractLsb'_of_and 8 harg⟩
  | secPack | wkdayPack =>
    exact ⟨hop, zero_eq_of_and_allOnes htag, rfl, zero_eq_of_and_allOnes hb, setWidth_extractLsb'_of_and 8 harg⟩
  | yearPack => exact ⟨hop, zero_eq_of_and_allOnes htag, false_eq_of_and_true hf, zero_eq_of_and_allOnes hb, rfl⟩
  | hourEnc =>
    exact ⟨hop, tagCode_ofCode tag, false_eq_of_and_true hf, zero_eq_of_and_allOnes hb,
      setWidth_extractLsb'_of_and 8 harg⟩
  | hourNorm => exact ⟨hop, tagCode_ofCode tag, rfl, zero_eq_of_and_allOnes hb, setWidth_extractLsb'_of_and 8 harg⟩
  | bitWr => exact ⟨hop, zero_eq_of_and_allOnes htag, rfl, rfl, setWidth_extractLsb'_of_and 8 harg⟩
  | bitTest =>
    exact ⟨hop, zero_eq_of_and_allOnes htag, false_eq_of_and_true hf, rfl, setWidth_extractLsb'_of_and 8 harg⟩
  | ctrlSqwfs =>
    refine ⟨hop, zero_eq_of_and_allOnes htag, false_eq_of_and_true hf, ?_, setWidth_extractLsb'_of_and 8 harg⟩
    exact (congrArg (·.setWidth 8) (sqwCode_ofCode _)).trans (setWidth_extractLsb'_of_and 2 hb)
  | almwkPack =>
    refine ⟨hop, zero_eq_of_and_allOnes htag, rfl, ?_, setWidth_extractLsb'_of_and 8 harg⟩
    exact (congrArg (·.setWidth 8) (matchCode_ofCode _)).trans (setWidth_extractLsb'_of_and 3 hb)
  | eewpPack =>
    refine ⟨hop, zero_eq_of_and_allOnes htag, false_eq_of_and_true hf, zero_eq_of_and_allOnes hb, ?_⟩
    exact (congrArg (·.setWidth 16) (levelCode_ofCode _)).trans (setWidth_extractLsb'_of_and 2 harg)

/-- A word that a row fits is the request word of the instruction it spells, well-formed or not. -/
theorem encode_instrOf_of_match {w : Word} {op : Op} (hm : w &&& op.format.mask = op.matchWord) :
    encode (instrOf op (fieldsOf w)) = w := by
  rw [encode, fields_instrOf_of_match hm, toWord_fieldsOf]

/-- Settles O26: a decoded word fits a row, so what the row's format does not read is 0. -/
theorem decodedWordIsEncoding : Obligations.DecodedWordIsEncoding := by
  intro w i h
  obtain ⟨op, -, hm, rfl, hwf⟩ := decode_ok h
  exact ⟨hwf, encode_instrOf_of_match hm⟩

/-! ### The request word as a number -/

/-- The statements' readings of a request word are its fields (R10, R81). -/
theorem opOf_eq (w : Word) : Spec.opOf w = (fieldsOf w).op.toNat := by
  simp [Spec.opOf, fieldsOf, BitVec.extractLsb'_toNat, Nat.shiftRight_eq_div_pow]

theorem tagOf_eq (w : Word) : Spec.tagOf w = (fieldsOf w).tag.toNat := by
  simp [Spec.tagOf, fieldsOf, BitVec.extractLsb'_toNat, Nat.shiftRight_eq_div_pow]

theorem fOf_eq (w : Word) : Spec.fOf w = (fieldsOf w).f.toNat := (Nat.toNat_testBit w.toNat 24).symm

theorem bOf_eq (w : Word) : Spec.bOf w = (fieldsOf w).b.toNat := by
  simp [Spec.bOf, fieldsOf, BitVec.extractLsb'_toNat, Nat.shiftRight_eq_div_pow]

theorem argOf_eq (w : Word) : Spec.argOf w = (fieldsOf w).arg.toNat := by
  simp [Spec.argOf, fieldsOf, BitVec.extractLsb'_toNat]

theorem aOf_eq (w : Word) : Spec.aOf w = (fieldsOf w).byteA.toNat := by
  simp only [Spec.aOf, fieldsOf, Fields.byteA, BitVec.extractLsb'_toNat, Nat.shiftRight_zero]
  omega

/-- The request word of fields is the sum of the fields at their places (R81). -/
theorem toWord_toNat (x : Fields) :
    x.toWord.toNat =
      x.op.toNat * 2 ^ 27 + x.tag.toNat * 2 ^ 25 + x.f.toNat * 2 ^ 24 + x.b.toNat * 2 ^ 16 + x.arg.toNat := by
  have hop := opOf_eq x.toWord
  have htag := tagOf_eq x.toWord
  have hf := fOf_eq x.toWord
  have hb := bOf_eq x.toWord
  have harg := argOf_eq x.toWord
  have hlt := x.toWord.isLt
  rw [fieldsOf_toWord] at hop htag hf hb harg
  rw [← hop, ← htag, ← hf, ← hb, ← harg]
  simp only [Spec.opOf, Spec.tagOf, Spec.fOf, Spec.bOf, Spec.argOf]
  omega

theorem matchWord_toNat (op : Op) : op.matchWord.toNat = op.code.toNat * 2 ^ 27 := by cases op <;> rfl

/-- A request word is its match word plus the operands at their places. -/
theorem toWord_eq_matchWord_add {x : Fields} {op : Op} {n : Nat} (hop : x.op = op.code)
    (hn : x.tag.toNat * 2 ^ 25 + x.f.toNat * 2 ^ 24 + x.b.toNat * 2 ^ 16 + x.arg.toNat = n) :
    x.toWord = op.matchWord + BitVec.ofNat 32 n := by
  have hsum : x.toWord.toNat = op.code.toNat * 2 ^ 27 + n := by
    rw [toWord_toNat, hop, ← hn]
    simp only [Nat.add_assoc]
  apply BitVec.eq_of_toNat_eq
  rw [BitVec.toNat_add, BitVec.toNat_ofNat, matchWord_toNat, Nat.add_mod_mod, ← hsum,
    Nat.mod_eq_of_lt x.toWord.isLt]

end Sys2Proof

/-! ### The opcode map, the assembler and the pseudo-instructions -/

namespace Sys2Proof.Machine

/-- Settles O27: the 23 rows, each computed from R82's mask and R84's OP. -/
theorem opcodeMapHasRowsOfSpec : Obligations.OpcodeMapHasRowsOfSpec := by
  unfold Obligations.OpcodeMapHasRowsOfSpec
  rfl

/-- A number that does not fit its field refuses the line. -/
@[simp] theorem fit_bind {α : Type} (k n : Nat) (g : BitVec k → Option α) :
    (fit k n).bind g = if n ≤ 2 ^ k - 1 then g (BitVec.ofNat k n) else none := by
  have hk : n < 2 ^ k ↔ n ≤ 2 ^ k - 1 := by have := Nat.two_pow_pos k; omega
  unfold fit
  split_ifs <;> simp_all

@[simp] theorem fitBit_bind {α : Type} (n : Nat) (g : Bool → Option α) :
    (fitBit n).bind g = if n ≤ 1 then g (n = 1) else none := by
  unfold fitBit
  by_cases h : n < 2
  · rw [if_pos h, if_pos (by omega)]
    rfl
  · rw [if_neg h, if_neg (by omega)]
    rfl

@[simp] theorem fitMode_bind {α : Type} (m : Nat) (g : Bool → Option α) :
    (fitMode m).bind g = if m = 24 ∨ m = 12 then g (m = 24) else none := by
  unfold fitMode
  split_ifs <;> simp_all

/-! Each operand form of R95: the line has fields exactly when its operands fit. -/

section AssembleFields

variable {op : Op} (t : HourTag) (a b c f m : Nat)

theorem assembleFields_u8 (h : op.format = .u8) :
    assembleFields op [.num a] = if a ≤ 255 then some (byteFields op (BitVec.ofNat 8 a)) else none := by
  simp [assembleFields, h, Option.map_eq_bind]

theorem assembleFields_u8f (h : op.format = .u8f) :
    assembleFields op [.num a, .num f] =
      if a ≤ 255 ∧ f ≤ 1 then some { byteFields op (BitVec.ofNat 8 a) with f := f = 1 } else none := by
  simp [assembleFields, h, ite_and]

theorem assembleFields_u16 (h : op.format = .u16) :
    assembleFields op [.num a] =
      if a ≤ 65535 then some { byteFields op 0#8 with arg := BitVec.ofNat 16 a } else none := by
  simp [assembleFields, h]

theorem assembleFields_ht (h : op.format = .ht) :
    assembleFields op [.hour t a] =
      if a ≤ 255 then some { byteFields op (BitVec.ofNat 8 a) with tag := (tagField t).code } else none := by
  simp [assembleFields, h]

theorem assembleFields_htf (h : op.format = .htf) :
    assembleFields op [.num m, .hour t a] =
      if (m = 24 ∨ m = 12) ∧ a ≤ 255 then
        some { byteFields op (BitVec.ofNat 8 a) with tag := (tagField t).code, f := m = 24 } else none := by
  simp [assembleFields, h, ite_and]

theorem assembleFields_bw (h : op.format = .bw) :
    assembleFields op [.num a, .num b, .num f] =
      if a ≤ 255 ∧ b ≤ 255 ∧ f ≤ 1 then
        some { byteFields op (BitVec.ofNat 8 a) with b := BitVec.ofNat 8 b, f := f = 1 } else none := by
  simp [assembleFields, h, ite_and]

theorem assembleFields_bt (h : op.format = .bt) :
    assembleFields op [.num a, .num b] =
      if a ≤ 255 ∧ b ≤ 255 then some { byteFields op (BitVec.ofNat 8 a) with b := BitVec.ofNat 8 b } else none := by
  simp [assembleFields, h, ite_and]

theorem assembleFields_sq (h : op.format = .sq) :
    assembleFields op [.num a, .num c] =
      if a ≤ 255 ∧ c ≤ 3 then
        some { byteFields op (BitVec.ofNat 8 a) with b := (BitVec.ofNat 2 c).setWidth 8 } else none := by
  simp [assembleFields, h, ite_and]

theorem assembleFields_aw (h : op.format = .aw) :
    assembleFields op [.num a, .num c, .num f] =
      if a ≤ 255 ∧ c ≤ 7 ∧ f ≤ 1 then
        some { byteFields op (BitVec.ofNat 8 a) with b := (BitVec.ofNat 3 c).setWidth 8, f := f = 1 } else none := by
  simp [assembleFields, h, ite_and]

theorem assembleFields_e2 (h : op.format = .e2) :
    assembleFields op [.num c] =
      if c ≤ 3 then some { byteFields op 0#8 with arg := (BitVec.ofNat 2 c).setWidth 16 } else none := by
  simp [assembleFields, h]

end AssembleFields

/-- A line whose fields are known has the word that adds them to the match word. -/
theorem assemble_of_fields {op : Op} {args : List AsmArg} {fits : Prop} [Decidable fits] {x : Fields} {m : Word}
    {n : Nat} (hx : assembleFields op args = if fits then some x else none) (hop : x.op = op.code)
    (hm : op.matchWord = m)
    (hn : fits → x.tag.toNat * 2 ^ 25 + x.f.toNat * 2 ^ 24 + x.b.toNat * 2 ^ 16 + x.arg.toNat = n) :
    assemble op args = if fits then some (m + BitVec.ofNat 32 n) else none := by
  rw [assemble, hx]
  split_ifs with h
  · rw [Option.map_some, toWord_eq_matchWord_add hop (hn h), hm]
  · rfl

/-- A one-bit operand that fits is its bit. -/
theorem toNat_decide_eq_one {v : Nat} (h : v ≤ 1) : (decide (v = 1)).toNat = v := by
  interval_cases v <;> rfl

/-- HOUR.NORM's target mode as F. -/
theorem toNat_decide_eq_24 (m : Nat) : (decide (m = 24)).toNat = if m = 24 then 1 else 0 := by
  split_ifs with h <;> simp [h]

theorem tagCode_toNat (t : TagField) : t.code.toNat = Spec.tagNumber t := by cases t <;> rfl

/-- Settles O45: by format, and an operand that fits its field is the field's number. -/
theorem assemblerFitsOperands : Obligations.AssemblerFitsOperands := by
  refine ⟨fun op a h => assemble_of_fields (assembleFields_u8 a h) rfl rfl ?u8,
    fun op a f h => assemble_of_fields (assembleFields_u8f a f h) rfl rfl ?u8f,
    fun y => assemble_of_fields (assembleFields_u16 y rfl) rfl rfl ?u16,
    fun t h => assemble_of_fields (assembleFields_ht t h rfl) rfl rfl ?ht,
    fun m t h => assemble_of_fields (assembleFields_htf t h m rfl) rfl rfl ?htf,
    fun a mask v => assemble_of_fields (assembleFields_bw a mask v rfl) rfl rfl ?bw,
    fun a mask => assemble_of_fields (assembleFields_bt a mask rfl) rfl rfl ?bt,
    fun a code => assemble_of_fields (assembleFields_sq a code rfl) rfl rfl ?sq,
    fun wd code pol => assemble_of_fields (assembleFields_aw wd code pol rfl) rfl rfl ?aw,
    fun level => assemble_of_fields (assembleFields_e2 level rfl) rfl rfl ?e2⟩
  all_goals
    intro hfits
    simp (disch := omega) [byteFields, Nat.mod_eq_of_lt, toNat_decide_eq_one, toNat_decide_eq_24, tagCode_toNat]

/-! Request words as the OR of the match word and the operands at their places. -/

theorem toWord_byteFields (op : Op) (a : Byte) : (byteFields op a).toWord = op.matchWord ||| a.setWidth 32 := by
  simp [Fields.toWord, byteFields, Op.matchWord]

theorem toWord_byteFields_tag (op : Op) (a : Byte) (t : TagField) :
    Fields.toWord { byteFields op a with tag := t.code } =
      op.matchWord ||| BitVec.ofNat 32 (Spec.tagNumber t * 2 ^ 25) ||| a.setWidth 32 := by
  have htag : t.code.setWidth 32 <<< 25 = BitVec.ofNat 32 (Spec.tagNumber t * 2 ^ 25) := by cases t <;> rfl
  simp [-Nat.reducePow, Fields.toWord, byteFields, Op.matchWord, htag]

theorem toWord_byteFields_mask (op : Op) (a mask : Byte) (v : Bool) :
    Fields.toWord { byteFields op a with b := mask, f := v } =
      op.matchWord ||| mask.setWidth 32 <<< 16 ||| BitVec.ofNat 32 (Spec.bit v * 2 ^ 24) ||| a.setWidth 32 := by
  have hv : (BitVec.ofBool v).setWidth 32 <<< 24 = BitVec.ofNat 32 (Spec.bit v * 2 ^ 24) := by cases v <;> rfl
  simp only [Fields.toWord, byteFields, Op.matchWord, hv]
  simp [BitVec.or_assoc, BitVec.or_comm (BitVec.ofNat 32 _)]

/-- Settles O46: each expansion has a byte operand alone, or with an hour tag, or with the mask and value of a flag. -/
theorem pseudoInstructionWords : Obligations.PseudoInstructionWords := by
  refine ⟨fun b => ⟨toWord_byteFields .bcdDec b, toWord_byteFields .bcdDec b, toWord_byteFields .hourDec b,
      toWord_byteFields .secPack b, toWord_byteFields .minPack b, toWord_byteFields .dayPack b,
      toWord_byteFields .monthPack b, toWord_byteFields .bcdDec b, toWord_byteFields .hourDec b,
      toWord_byteFields .bcdDec b, ?oscStart, ?oscStop, ?oscRunning, ?vbatEn, ?vbatDis, ?pwrfailTest, ?pwrfailClr,
      ?almifTest, ?almifClr⟩, fun t h => toWord_byteFields_tag .hourEnc h (tagField t),
    fun b v => ⟨?almpolWr, ?ctrlOut, ?ctrlSqwen, ?ctrlAlm1en, ?ctrlAlm0en, ?ctrlExtosc, ?ctrlCrstrim⟩⟩
  case oscStart | oscStop | vbatEn | vbatDis | pwrfailClr | almifClr | almpolWr | ctrlOut | ctrlSqwen | ctrlAlm1en
    | ctrlAlm0en | ctrlExtosc | ctrlCrstrim =>
    exact toWord_byteFields_mask .bitWr b _ _
  case oscRunning | pwrfailTest | almifTest => exact toWord_byteFields_mask .bitTest b _ false

/-! ### A step on a decoded request -/

/-- Settles O24, by the definition of a step. -/
theorem stepRunsDecodedInstruction : Obligations.StepRunsDecodedInstruction := fun _ _ => step_of_decode_ok

/-- Settles O28: each example's request word and response word are evaluated. -/
theorem encodingExamplesAnswerAsSpec : Obligations.EncodingExamplesAnswerAsSpec := by
  unfold Obligations.EncodingExamplesAnswerAsSpec
  and_intros <;> decide

/-! ### Which request words are illegal -/

/-- The operation of an instruction's request, as R10's number. -/
theorem opOf_encode (i : Instr) : Spec.opOf (encode i) = i.op.code.toNat := by
  rw [opOf_eq, encode, fieldsOf_toWord, fields_op]

theorem tagOf_encode (i : Instr) : Spec.tagOf (encode i) = i.fields.tag.toNat := by
  rw [tagOf_eq, encode, fieldsOf_toWord]

theorem fOf_encode (i : Instr) : Spec.fOf (encode i) = i.fields.f.toNat := by
  rw [fOf_eq, encode, fieldsOf_toWord]

theorem bOf_encode (i : Instr) : Spec.bOf (encode i) = i.fields.b.toNat := by
  rw [bOf_eq, encode, fieldsOf_toWord]

theorem argOf_encode (i : Instr) : Spec.argOf (encode i) = i.fields.arg.toNat := by
  rw [argOf_eq, encode, fieldsOf_toWord]

theorem aOf_encode (i : Instr) : Spec.aOf (encode i) = i.fields.byteA.toNat := by
  rw [aOf_eq, encode, fieldsOf_toWord]

/-- No row of the spec's map fits a word exactly where no operation's does. -/
theorem no_row_iff (w : Word) :
    (∀ row ∈ Spec.rows, w &&& row.1 ≠ row.2) ↔ ∀ op : Op, w &&& op.format.mask ≠ op.matchWord := by
  rw [← opcodeMapHasRowsOfSpec]
  refine ⟨fun h op => ?_, fun h row hrow => ?_⟩
  · exact h (op.format.mask, op.matchWord) (List.mem_map.mpr ⟨op, by cases op <;> decide, rfl⟩)
  · obtain ⟨op, -, rfl⟩ := List.mem_map.mp hrow
    exact h op

theorem named_eq_false_iff (t : TagField) : t.named = false ↔ t.code.toNat = 3 := by cases t <;> decide

theorem used_eq_false_iff (c : MatchCode) : c.used = false ↔ c.code.toNat % 8 = 5 ∨ c.code.toNat % 8 = 6 := by
  cases c <;> decide

theorem wf_hourEnc (tag : TagField) (a : Byte) : (Instr.hourEnc tag a).wf = tag.named := Bool.and_true _

theorem wf_hourNorm (to24 : Bool) (tag : TagField) (a : Byte) : (Instr.hourNorm to24 tag a).wf = tag.named :=
  Bool.and_true _

theorem wf_almwkPack (a : Byte) (code : MatchCode) (pol : Bool) : (Instr.almwkPack a code pol).wf = code.used :=
  Bool.true_and _

/-- An instruction's request is illegal exactly where its operands fail R86 or R87: its own row fits it. -/
theorem illegal_encode_iff (i : Instr) : Spec.illegal (encode i) ↔ i.wf = false := by
  have hrow : ¬ ∀ row ∈ Spec.rows, encode i &&& row.1 ≠ row.2 := fun h => (no_row_iff _).mp h i.op (encode_match i)
  rw [Spec.illegal, opOf_encode, tagOf_encode, bOf_encode]
  simp only [hrow, false_or]
  cases i with
  | hourEnc tag a => simp [Instr.op, Op.code, Instr.fields, wf_hourEnc, named_eq_false_iff]
  | hourNorm to24 tag a => simp [Instr.op, Op.code, Instr.fields, wf_hourNorm, named_eq_false_iff]
  | almwkPack a code pol => simp [Instr.op, Op.code, Instr.fields, wf_almwkPack, used_eq_false_iff]
  | _ => simp [Instr.op, Op.code, Instr.wf, Instr.tagNamed, Instr.matchUsed]

/-- Every request word is illegal and refused, or the request of the well-formed instruction it decodes to. -/
theorem decode_cases (w : Word) :
    (Spec.illegal w ∧ ∃ why, decode w = .error why)
    ∨ ∃ i, w = encode i ∧ decode w = .ok i ∧ ¬ Spec.illegal w := by
  by_cases hrow : ∀ op : Op, w &&& op.format.mask ≠ op.matchWord
  · exact .inl ⟨.inl ((no_row_iff w).mpr hrow), decode_of_no_match hrow⟩
  · push Not at hrow
    obtain ⟨op, hm⟩ := hrow
    have hw := encode_instrOf_of_match hm
    have hiff := illegal_encode_iff (instrOf op (fieldsOf w))
    rw [hw] at hiff
    cases hwf : (instrOf op (fieldsOf w)).wf
    · exact .inl ⟨hiff.mpr hwf, decode_of_match_illFormed hm hwf⟩
    · exact .inr ⟨_, hw.symm, decode_of_match hm hwf, fun hill => by simp [hiff.mp hill] at hwf⟩

/-! ### What an instruction answers -/

/-- An instruction's operand is out of its range exactly where R220's test on its request's fields says so. -/
theorem outOfRange_encode_iff (i : Instr) : Spec.outOfRange (encode i) ↔ Spec.operandOutOfRange i := by
  rw [Spec.outOfRange, opOf_encode, tagOf_encode, aOf_encode, argOf_encode]
  cases i with
  | hourEnc tag a | hourNorm to24 tag a =>
    simp [Spec.operandOutOfRange, Instr.op, Op.code, Instr.fields, byteFields, tagCode_toNat]
  | _ => simp [Spec.operandOutOfRange, Instr.op, Op.code, Instr.fields, byteFields]

/-- The largest RESULT of an instruction: a byte, but for YEAR.UNPACK (R7, R88, R162). -/
def maxResult (i : Instr) : Nat := if i.op = .yearUnpack then 2165 else 255

/-- RTAG of an instruction's OK response (R91): the result's tag for HOUR.DEC and HOUR.NORM. -/
def okTag : Instr → BitVec 2
  | .hourDec a => hourTagCode (hourOfByte a).1
  | .hourNorm to24 tag a => ((hourTag? tag).map fun t => hourTagCode (hourToMode to24 t a.toNat).1).getD 0b00#2
  | _ => 0b00#2

/-- RFLAG of an instruction's OK response (R91): a 24-hour result of the hour operations, BIT.TEST's test. -/
def okFlag : Instr → Bool
  | .hourEnc tag _ => tag = .h24
  | .hourDec a => hourFlag (hourOfByte a).1
  | .hourNorm to24 _ _ => to24
  | .bitTest a mask => maskFlag a mask
  | _ => false

/-- The evaluation answers INVALID_INPUT where `bad` holds, and elsewhere OK with a RESULT that fits and the RTAG and
RFLAG of the instruction. -/
def AnswersInRange (i : Instr) (bad : Prop) (m : State → Host.Outcome State Fault Refusal) : Prop :=
  (bad ∧ ∀ s, m s = .next (s.respond (.raised .invalidInput)))
  ∨ (¬ bad ∧ ∃ result : Half, result.toNat ≤ maxResult i
      ∧ ∀ s, m s = .next (s.respond (.ok result (okTag i) (okFlag i))))

theorem byte_le_maxResult (i : Instr) (v : Byte) : (zext16 v).toNat ≤ maxResult i := by
  have := v.isLt
  rw [zext16_toNat, maxResult]
  split_ifs <;> omega

theorem half_le_maxResult (i : Instr) {n : Nat} (h : n ≤ 255) : (half n).toNat ≤ maxResult i := by
  rw [half_toNat (by omega), maxResult]
  split_ifs <;> omega

theorem AnswersInRange.of_raise {i : Instr} {bad : Prop} {m : State → Host.Outcome State Fault Refusal} (hbad : bad)
    (hm : ∀ s, m s = raise .invalidInput s) : AnswersInRange i bad m :=
  .inl ⟨hbad, fun s => (hm s).trans (raise_eq _ s)⟩

theorem AnswersInRange.of_ok {i : Instr} {bad : Prop} {m : State → Host.Outcome State Fault Refusal} {result : Half}
    (hgood : ¬ bad) (hfits : result.toNat ≤ maxResult i) (hm : ∀ s, m s = answer result (okTag i) (okFlag i) s) :
    AnswersInRange i bad m :=
  .inr ⟨hgood, result, hfits, fun s => (hm s).trans (answer_eq _ _ _ s)⟩

/-- An operation that checks its range before it answers. -/
theorem AnswersInRange.of_check {i : Instr} {bad : Prop} {_ : Decidable bad}
    {m : State → Host.Outcome State Fault Refusal} {result : Half} (hfits : result.toNat ≤ maxResult i)
    (hm : ∀ s, m s = if bad then raise .invalidInput s else answer result (okTag i) (okFlag i) s) :
    AnswersInRange i bad m := by
  by_cases h : bad
  · exact .of_raise h fun s => (hm s).trans (if_pos h)
  · exact .of_ok h hfits fun s => (hm s).trans (if_neg h)

theorem validHour_iff (t : HourTag) (h : Nat) :
    validHour t h = true ↔ Spec.validHour (Spec.tagNumber (tagField t)) h := by
  cases t <;> simp [validHour, tagField, Spec.tagNumber, Spec.validHour]

theorem hourOfByte_le (a : Byte) : (hourOfByte a).2 ≤ 165 := by
  unfold hourOfByte
  split_ifs <;> exact dec_le _

theorem validHour_le {t : HourTag} {h : Nat} (v : validHour t h = true) : h ≤ 23 := by
  cases t <;> simp only [validHour, Bool.and_eq_true, decide_eq_true_eq] at v <;> omega

theorem hourFlag_hourTo24 (t : HourTag) (h : Nat) : hourFlag (hourTo24 t h).1 = true := by
  cases t with
  | h24 => rfl
  | am | pm =>
    simp only [hourTo24]
    split_ifs <;> rfl

theorem hourFlag_hourTo12 (t : HourTag) (h : Nat) : hourFlag (hourTo12 t h).1 = false := by
  cases t with
  | am | pm => rfl
  | h24 =>
    simp only [hourTo12]
    split_ifs <;> rfl

theorem hourFlag_hourToMode (to24 : Bool) (t : HourTag) (h : Nat) : hourFlag (hourToMode to24 t h).1 = to24 := by
  cases to24 with
  | false => exact hourFlag_hourTo12 t h
  | true => exact hourFlag_hourTo24 t h

theorem hourFlag_eq (t : HourTag) : hourFlag t = decide (tagField t = .h24) := by cases t <;> rfl

theorem execHourEnc_tagField (t : HourTag) (a : Byte) (s : State) :
    execHourEnc (tagField t) a s =
      if validHour t a.toNat then answer (zext16 (hourByte t a.toNat)) 0b00#2 (hourFlag t) s
      else raise .invalidInput s := by
  rw [execHourEnc, hourTag_tagField]

theorem execHourNorm_tagField (to24 : Bool) (t : HourTag) (a : Byte) (s : State) :
    execHourNorm to24 (tagField t) a s =
      if validHour t a.toNat then completeHour (hourToMode to24 t a.toNat) s else raise .invalidInput s := by
  rw [execHourNorm, hourTag_tagField]

theorem execHourEnc_inRange (t : HourTag) (a : Byte) :
    AnswersInRange (.hourEnc (tagField t) a) (¬ Spec.validHour (Spec.tagNumber (tagField t)) a.toNat)
      (execHourEnc (tagField t) a) := by
  rw [← validHour_iff]
  by_cases v : validHour t a.toNat = true
  · refine .of_ok (not_not_intro v) (byte_le_maxResult _ (hourByte t a.toNat)) fun s => ?_
    rw [execHourEnc_tagField, if_pos v, hourFlag_eq]
    rfl
  · exact .of_raise v fun s => (execHourEnc_tagField t a s).trans (if_neg v)

theorem execHourNorm_inRange (to24 : Bool) (t : HourTag) (a : Byte) :
    AnswersInRange (.hourNorm to24 (tagField t) a) (¬ Spec.validHour (Spec.tagNumber (tagField t)) a.toNat)
      (execHourNorm to24 (tagField t) a) := by
  rw [← validHour_iff]
  by_cases v : validHour t a.toNat = true
  · have hle := validHour_le (validHour_hourToMode (to24 := to24) v)
    refine .of_ok (not_not_intro v) (half_le_maxResult _ (le_trans hle (by decide))) fun s => ?_
    rw [execHourNorm_tagField, if_pos v, completeHour, okTag, okFlag, hourTag_tagField, hourFlag_hourToMode]
    rfl
  · exact .of_raise v fun s => (execHourNorm_tagField to24 t a s).trans (if_neg v)

theorem execAlmwkPack_of_used {code : MatchCode} (h : code.used = true) (a : Byte) (pol : Bool) (s : State) :
    execAlmwkPack a code pol s =
      if a.toNat < 1 ∨ 7 < a.toNat then raise .invalidInput s
      else complete (zext16 (bcd a.toNat ||| (code.code.setWidth 8 <<< 4) ||| fold pol 7)) s := by
  rw [execAlmwkPack, h, Bool.not_true, if_neg Bool.false_ne_true]

/-- A tag that names a variant is the tag field of that variant. -/
theorem exists_tagField_of_named {tag : TagField} (h : tag.named = true) : ∃ t, tag = tagField t := by
  rw [← hourTag_isSome, Option.isSome_iff_exists] at h
  obtain ⟨t, ht⟩ := h
  exact ⟨t, tagField_of_hourTag ht⟩

/-- What a well-formed instruction answers (R88, R90, R91, R220). -/
theorem exec_inRange {i : Instr} (hwf : i.wf = true) : AnswersInRange i (Spec.operandOutOfRange i) (exec i) := by
  cases i with
  | hourEnc tag a =>
    obtain ⟨t, rfl⟩ := exists_tagField_of_named (wf_hourEnc tag a ▸ hwf)
    exact execHourEnc_inRange t a
  | hourNorm to24 tag a =>
    obtain ⟨t, rfl⟩ := exists_tagField_of_named (wf_hourNorm to24 tag a ▸ hwf)
    exact execHourNorm_inRange to24 t a
  | almwkPack a code pol =>
    exact .of_check (byte_le_maxResult _ _) (execAlmwkPack_of_used (wf_almwkPack a code pol ▸ hwf) a pol)
  | secPack | minPack | wkdayPack | dayPack | monthPack | yearPack =>
    exact .of_check (byte_le_maxResult _ _) fun _ => rfl
  | bcdEnc | bitWr | ctrlSqwfs | trimPack | eewpPack => exact .of_ok not_false (byte_le_maxResult _ _) fun _ => rfl
  | bcdDec | secUnpack | wkdayUnpack | monthUnpack | pfMonthUnpack =>
    exact .of_ok not_false (half_le_maxResult _ (le_trans (dec_le _) (by decide))) fun _ => rfl
  | hourDec a => exact .of_ok not_false (half_le_maxResult _ (le_trans (hourOfByte_le a) (by decide))) fun _ => rfl
  | yearUnpack a =>
    have := dec_le a
    exact .of_ok not_false (by rw [half_toNat (by omega)]; show _ ≤ 2165; omega) fun _ => rfl
  | bitTest a mask => exact .of_ok (result := 0#16) not_false (Nat.zero_le _) fun _ => rfl
  | pfWkdayUnpack a =>
    have hlt : (a.extractLsb' 5 3).toNat < 8 := BitVec.isLt _
    exact .of_ok not_false (half_le_maxResult _ (by omega)) fun _ => rfl

/-- All a step can answer, in the order of R221's checks. -/
theorem step_in_check_order (s : State) :
    (Spec.illegal s.req ∧ step s = .next (s.respond (.raised .illegalRequest)))
    ∨ (¬ Spec.illegal s.req ∧ Spec.outOfRange s.req ∧ step s = .next (s.respond (.raised .invalidInput)))
    ∨ (¬ Spec.illegal s.req ∧ ¬ Spec.outOfRange s.req ∧ ∃ (i : Instr) (result : Half), i.wf = true ∧ s.req = encode i
        ∧ result.toNat ≤ maxResult i ∧ step s = .next (s.respond (.ok result (okTag i) (okFlag i)))) := by
  rcases decode_cases s.req with ⟨hillegal, why, hdecode⟩ | ⟨i, hreq, hdecode, hlegal⟩
  · exact .inl ⟨hillegal, step_of_decode_error hdecode⟩
  · have hwf := (decodedWordIsEncoding _ _ hdecode).1
    have hstep := step_of_decode_ok hdecode
    have hrange : Spec.outOfRange s.req ↔ Spec.operandOutOfRange i := by rw [hreq, outOfRange_encode_iff]
    rcases exec_inRange hwf with ⟨hbad, hexec⟩ | ⟨hgood, result, hfits, hexec⟩
    · exact .inr (.inl ⟨hlegal, hrange.mpr hbad, hstep.trans (hexec s)⟩)
    · exact .inr (.inr ⟨hlegal, hrange.not.mpr hgood, i, result, hwf, hreq, hfits, hstep.trans (hexec s)⟩)

/-- STATUS of an OK response is 0: its word has no bit above 29 (R88, R89). -/
theorem ok_lt (result : Half) (rtag : BitVec 2) (rflag : Bool) :
    (Response.ok result rtag rflag).toWord.toNat < 2 ^ 30 := by
  have hresult := result.isLt
  have hrtag := rtag.isLt
  have hrflag := rflag.toNat_le
  rw [ok_toNat]
  omega

/-- Settles O29: the three outcomes of a step, in the order of the checks. -/
theorem statusFollowsCheckOrder : Obligations.StatusFollowsCheckOrder := by
  intro s
  rcases step_in_check_order s with ⟨hillegal, hstep⟩ | ⟨hlegal, hout, hstep⟩
    | ⟨hlegal, hin, i, result, -, -, -, hstep⟩
  · exact ⟨fun _ => hstep, fun h => absurd hillegal h, fun h => absurd hillegal h⟩
  · exact ⟨fun h => absurd h hlegal, fun _ _ => hstep, fun _ h => absurd hout h⟩
  · exact ⟨fun h => absurd h hlegal, fun _ h => absurd h hin, fun _ _ => ⟨_, hstep, ok_lt result _ _⟩⟩

/-- All an evaluation can answer: an error response, or the OK response of a well-formed instruction. -/
theorem step_next_cases {s t : State} (h : step s = .next t) :
    (∃ cause, t.rsp = (Response.raised cause).toWord)
    ∨ ∃ (i : Instr) (result : Half), i.wf = true ∧ s.req = encode i ∧ result.toNat ≤ maxResult i
        ∧ t.rsp = (Response.ok result (okTag i) (okFlag i)).toWord := by
  rcases step_in_check_order s with ⟨-, hstep⟩ | ⟨-, -, hstep⟩ | ⟨-, -, i, result, hwf, hreq, hfits, hstep⟩
  all_goals
    rw [hstep] at h
    cases h
  · exact .inl ⟨_, rfl⟩
  · exact .inl ⟨_, rfl⟩
  · exact .inr ⟨i, result, hwf, hreq, hfits, rfl⟩

/-- Settles O35: an error response has RESULT 0, and an OK response's word is the sum of its fields. -/
theorem resultFitsItsField : Obligations.ResultFitsItsField := by
  intro s t h
  rcases step_next_cases h with ⟨cause, hrsp⟩ | ⟨i, result, -, hreq, hfits, hrsp⟩
  · rw [hrsp]
    cases cause <;> exact ⟨by decide, by decide, fun _ => by decide⟩
  · have hrtag := (okTag i).isLt
    have hmax : maxResult i ≤ 2165 := by unfold maxResult; split_ifs <;> omega
    rw [hrsp, hreq, ok_toNat, opOf_encode]
    refine ⟨by omega, by omega, fun hop => ?_⟩
    have hbyte : maxResult i = 255 := if_neg fun hyear => hop (by rw [hyear]; rfl)
    omega

theorem hourTagCode_toNat (t : HourTag) : (hourTagCode t).toNat = Spec.tagNumber (tagField t) := by cases t <;> rfl

theorem tagNumber_eq_zero_iff (tag : TagField) : Spec.tagNumber tag = 0 ↔ tag = .h24 := by cases tag <;> decide

/-- The statements' HOURS byte decoder is the model's (R133). -/
theorem spec_hourOfByte (a : Byte) :
    Spec.hourOfByte a.toNat = (Spec.tagNumber (tagField (hourOfByte a).1), (hourOfByte a).2) := by
  have h6 : a.getLsbD 6 = decide (a.toNat / 64 % 2 = 1) := Nat.testBit_eq_decide_div_mod_eq
  have h5 : a.getLsbD 5 = decide (a.toNat / 32 % 2 = 1) := Nat.testBit_eq_decide_div_mod_eq
  simp only [Spec.hourOfByte, hourOfByte, h6, h5, decide_eq_true_eq, dec_eq, Spec.dec, BitVec.toNat_and]
  split_ifs <;> rfl

/-- The statements' conversion to a mode is the model's (R135). -/
theorem spec_hourNorm (to24 : Bool) (t : HourTag) (h : Nat) :
    Spec.hourNorm to24.toNat (Spec.tagNumber (tagField t)) h =
      (Spec.tagNumber (tagField (hourToMode to24 t h).1), (hourToMode to24 t h).2) := by
  cases to24 with
  | true =>
    cases t with
    | h24 => rfl
    | am | pm =>
      unfold Spec.hourNorm hourToMode hourTo24
      split_ifs <;> simp_all [tagField, Spec.tagNumber]
  | false =>
    cases t with
    | am | pm => rfl
    | h24 =>
      unfold Spec.hourNorm hourToMode hourTo12
      split_ifs <;> simp_all [tagField, Spec.tagNumber]

theorem okTag_hourNorm (to24 : Bool) (t : HourTag) (a : Byte) :
    okTag (.hourNorm to24 (tagField t) a) = hourTagCode (hourToMode to24 t a.toNat).1 := by
  simp [okTag]

/-- BIT.TEST's test, on the operands as numbers (R181). -/
theorem maskFlag_eq (a mask : Byte) : maskFlag a mask = decide (a.toNat &&& mask.toNat ≠ 0) := by
  rw [Bool.eq_iff_iff]
  simp only [maskFlag, bne_iff_ne, ne_eq, BitVec.toNat_eq, BitVec.toNat_and, decide_eq_true_eq, BitVec.toNat_ofNat,
    Nat.zero_mod]

/-- Settles O36: the instruction's RTAG and RFLAG, on the fields of the request that it is encoded in. -/
theorem tagAndFlagOfResponse : Obligations.TagAndFlagOfResponse := by
  intro s t h hok
  rcases step_next_cases h with ⟨cause, hrsp⟩ | ⟨i, result, hwf, hreq, -, hrsp⟩
  · rw [hrsp, rspStatus_raised] at hok
    cases cause <;> cases hok
  · rw [hrsp, rspTag_ok, rspFlag_ok, hreq, opOf_encode, tagOf_encode, fOf_encode, bOf_encode, aOf_encode]
    cases i with
    | hourEnc tag a =>
      simp [Instr.op, Op.code, okTag, okFlag, Instr.fields, byteFields, tagCode_toNat, tagNumber_eq_zero_iff]
    | hourDec a =>
      simp [Instr.op, Op.code, okTag, okFlag, Instr.fields, byteFields, spec_hourOfByte, hourTagCode_toNat, hourFlag_eq,
        tagNumber_eq_zero_iff]
    | hourNorm to24 tag a =>
      obtain ⟨t, rfl⟩ := exists_tagField_of_named (wf_hourNorm to24 tag a ▸ hwf)
      simp [Instr.op, Op.code, okTag_hourNorm, okFlag, Instr.fields, byteFields, tagCode_toNat, spec_hourNorm,
        hourTagCode_toNat]
    | bitTest a mask =>
      simp [Instr.op, Op.code, okTag, okFlag, Instr.fields, byteFields, maskFlag_eq]
    | _ => simp [Instr.op, Op.code, okTag, okFlag]

end Sys2Proof.Machine


/-! ## The BCD codec (40_bcd.md)

First the rules that lead from `exec` to a step on any request word of a row and to the requester's answer; then the
codec as arithmetic on its nibbles. `dec` undoes `bcd` up to 99, and `bcd` undoes `dec` exactly where the low nibble is
a digit; the four laws follow from these two. -/

namespace Sys2Proof.Machine

/-! ### From an instruction's answer to a step and to the requester -/

/-- An `ok` response is the statements' response word (R88). -/
theorem ok_toWord (result : Half) (rtag : BitVec 2) (rflag : Bool) :
    (Response.ok result rtag rflag).toWord = Spec.okWord result.toNat rtag.toNat rflag.toNat := by
  rw [Spec.okWord, ← ok_toNat, BitVec.ofNat_toNat, BitVec.setWidth_eq]

/-- A completed operation's next state: RTAG and RFLAG are 0 and the input port is kept (R10, R91). -/
theorem complete_okWord (result : Half) (s : State) :
    complete result s = .next { s with rsp := Spec.okWord result.toNat 0 0 } := by
  rw [complete_eq, respond_eq, ok_toWord]
  rfl

/-- A request word that an operation's row fits runs the operation on the word's own operands (R82, R98). -/
theorem step_of_match {s : State} {op : Op} (hm : s.req &&& op.format.mask = op.matchWord)
    (hwf : (instrOf op (fieldsOf s.req)).wf = true) : step s = exec (instrOf op (fieldsOf s.req)) s :=
  step_of_decode_ok (decode_of_match hm hwf)

/-- The response to a well-formed instruction's request is the one that `exec` answers (R21). -/
theorem eval_encode {i : Instr} {r : Response} (hwf : i.wf = true) (hexec : ∀ s, exec i s = .next (s.respond r)) :
    eval (encode i) = some r.toWord := by
  have hdecode : decode (State.reset.present (encode i)).req = .ok i := decodeOfEncodeIsInstruction i hwf
  rw [eval, step_of_decode_ok hdecode, hexec]
  rfl

/-- The requester gets an OK response (R89). -/
theorem ask_of_answer {i : Instr} {result : Half} {rtag : BitVec 2} {rflag : Bool} (hwf : i.wf = true)
    (hexec : ∀ s, exec i s = answer result rtag rflag s) : ask i = some (Response.ok result rtag rflag).toWord := by
  have heval := eval_encode hwf fun s => (hexec s).trans (answer_eq _ _ _ s)
  simp only [ask, heval, rspStatus_ok, if_true]

/-- The requester reads the low byte of RESULT. -/
theorem askByte_of_answer {i : Instr} {result : Half} {rtag : BitVec 2} {rflag : Bool} (hwf : i.wf = true)
    (hexec : ∀ s, exec i s = answer result rtag rflag s) : askByte i = some (result.setWidth 8) := by
  rw [askByte, ask_of_answer hwf hexec, Option.map_some, rspResult_ok]

/-- The byte of a widened byte is the byte (R9). -/
@[simp] theorem setWidth_zext16 (v : Byte) : (zext16 v).setWidth 8 = v := by
  apply BitVec.eq_of_toNat_eq
  rw [BitVec.toNat_setWidth, zext16_toNat, Nat.mod_eq_of_lt v.isLt]

/-- The byte of a 16-bit result is its number's byte. -/
@[simp] theorem setWidth_half (n : Nat) : (half n).setWidth 8 = BitVec.ofNat 8 n :=
  BitVec.setWidth_ofNat_of_le (by decide) n

/-! ### BCD.ENC and BCD.DEC -/

theorem exec_bcdEnc (a : Byte) (s : State) : exec (.bcdEnc a) s = complete (zext16 (bcd a.toNat)) s := rfl

theorem exec_bcdDec (a : Byte) (s : State) : exec (.bcdDec a) s = complete (half (dec a)) s := rfl

/-- The block's own BCD encoding of a byte. -/
@[simp] theorem askByte_bcdEnc (a : Byte) : askByte (.bcdEnc a) = some (bcd a.toNat) := by
  rw [askByte_of_answer rfl (exec_bcdEnc a), setWidth_zext16]

/-- The block's own BCD decoding of a byte. -/
@[simp] theorem askByte_bcdDec (a : Byte) : askByte (.bcdDec a) = some (BitVec.ofNat 8 (dec a)) := by
  rw [askByte_of_answer rfl (exec_bcdDec a), setWidth_half]

/-- BCD.ENC's answer in the statements' formula (R120). -/
theorem exec_bcdEnc_okWord (a : Byte) (s : State) :
    exec (.bcdEnc a) s = .next { s with rsp := Spec.okWord (Spec.bcd a.toNat) 0 0 } := by
  rw [exec_bcdEnc, complete_okWord, zext16_toNat, bcd_toNat, Spec.bcd]

/-- BCD.DEC's answer in the statements' formula (R122). -/
theorem exec_bcdDec_okWord (a : Byte) (s : State) :
    exec (.bcdDec a) s = .next { s with rsp := Spec.okWord (Spec.dec a.toNat) 0 0 } := by
  have hle := dec_le a
  rw [exec_bcdDec, complete_okWord, half_toNat (by omega), dec_eq, Spec.dec]

/-- Settles O1: a word of BCD.ENC's row runs it on the word's low byte. -/
theorem bcdEncAnswersPackedBcd : Obligations.BcdEncAnswersPackedBcd := by
  refine ⟨exec_bcdEnc_okWord, fun s hrow => ?_⟩
  rw [step_of_match (op := .bcdEnc) hrow rfl, aOf_eq]
  exact exec_bcdEnc_okWord _ s

/-- Settles O2: a word of BCD.DEC's row runs it on the word's low byte. -/
theorem bcdDecAnswersDecimal : Obligations.BcdDecAnswersDecimal := by
  refine ⟨exec_bcdDec_okWord, fun a => ?_, fun s hrow => ?_⟩
  · rw [Spec.dec, ← dec_eq]
    exact dec_le a
  · rw [step_of_match (op := .bcdDec) hrow rfl, aOf_eq]
    exact exec_bcdDec_okWord _ s

/-! ### The nibbles of a packed byte -/

/-- Lane 0 is the units digit (R121). -/
theorem bcd_mod_16 (n : Nat) : (bcd n).toNat % 16 = n % 10 := by
  rw [bcd_toNat]
  omega

/-- Lane 1 is the tens, of which four bits are kept (R121). -/
theorem bcd_div_16 (n : Nat) : (bcd n).toNat / 16 = n / 10 % 16 := by
  rw [bcd_toNat]
  omega

/-- Up to 159 the tens fit lane 1 (R121). -/
theorem bcd_div_16_of_le {n : Nat} (h : n ≤ 159) : (bcd n).toNat / 16 = n / 10 := by
  rw [bcd_div_16, Nat.mod_eq_of_lt (by omega)]

/-- Settles O37: the two lanes of the block's answer, of which lane 1 loses nothing up to 159. -/
theorem bcdEncLanes : Obligations.BcdEncLanes := by
  intro a
  refine ⟨bcd a.toNat, askByte_bcdEnc a, bcd_mod_16 _, bcd_div_16 _, fun h99 => ?_, fun h100 h159 => ?_⟩
  · rw [bcd_div_16_of_le (by omega)]
    omega
  · rw [bcd_div_16_of_le h159]
    omega

/-! ### The laws of the codec (R124) -/

/-- Decoding undoes encoding while the tens fit lane 1. -/
theorem dec_bcd {n : Nat} (h : n ≤ 159) : dec (bcd n) = n := by
  rw [dec_eq, bcd_div_16_of_le h, bcd_mod_16, Nat.mul_comm, Nat.div_add_mod]

/-- Encoding undoes decoding exactly where the low nibble is a digit, whatever the high nibble. -/
theorem bcd_dec_iff (b : Byte) : bcd (dec b) = b ↔ b.toNat % 16 ≤ 9 := by
  have hb := b.isLt
  have hdec := dec_eq b
  constructor
  · intro h
    have hunits := bcd_mod_16 (dec b)
    rw [h] at hunits
    omega
  · intro h
    apply BitVec.eq_of_toNat_eq
    rw [bcd_toNat]
    omega

/-- A decoded value fits a byte. -/
@[simp] theorem ofNat_dec_toNat (b : Byte) : (BitVec.ofNat 8 (dec b)).toNat = dec b := by
  have hle := dec_le b
  rw [BitVec.toNat_ofNat, Nat.mod_eq_of_lt (by omega)]

/-- Bytes up to 159 with the same encoding are equal, since decoding gives both back. -/
theorem byte_eq_of_bcd_eq {m n : Byte} (hm : m.toNat ≤ 159) (hn : n.toNat ≤ 159) (h : bcd m.toNat = bcd n.toNat) :
    m = n := by
  apply BitVec.eq_of_toNat_eq
  rw [← dec_bcd hm, h, dec_bcd hn]

/-- The encodings of 0 to 99 are the bytes whose nibbles are both digits. -/
theorem exists_bcd_eq_iff (b : Byte) :
    (∃ n : Byte, n.toNat ≤ 99 ∧ bcd n.toNat = b) ↔ (b.toNat / 16 ≤ 9 ∧ b.toNat % 16 ≤ 9) := by
  constructor
  · rintro ⟨n, hn, rfl⟩
    rw [bcd_div_16_of_le (by omega), bcd_mod_16]
    omega
  · rintro ⟨hhigh, hlow⟩
    refine ⟨BitVec.ofNat 8 (dec b), ?_, ?_⟩
    · rw [ofNat_dec_toNat, dec_eq]
      omega
    · rw [ofNat_dec_toNat, bcd_dec_iff]
      exact hlow

/-- Settles O38: the block's answers are `bcd` and `dec`, which satisfy the four laws. -/
theorem bcdCodecLaws : Obligations.BcdCodecLaws := by
  unfold Obligations.BcdCodecLaws
  simp only [askByte_bcdEnc, askByte_bcdDec, Option.some.injEq]
  refine ⟨fun n hn => ⟨bcd n.toNat, rfl, ?decOfBcd⟩, fun b => ⟨BitVec.ofNat 8 (dec b), rfl, ?bcdOfDec⟩,
    fun m n hm hn => byte_eq_of_bcd_eq (by omega) (by omega), exists_bcd_eq_iff⟩
  case decOfBcd => rw [dec_bcd (by omega), BitVec.ofNat_toNat, BitVec.setWidth_eq]
  case bcdOfDec =>
    rw [ofNat_dec_toNat]
    refine ⟨bcd_dec_iff b, ?_⟩
    have hb := b.isLt
    rw [dec_eq]
    omega

end Sys2Proof.Machine


/-! ## The hour codec (41_hour.md)

The three operations in the statements' formulas (R131, R133, R135) and as the requester gets them. Two facts about the
codec's functions carry the laws of R137: the flag bits of an HOURS byte lie above the digits of a 12-hour value, so
decoding gives an encoded hour back (`hourOfByte_hourByte`); and converting a valid hour to the other mode and back
gives it back (`hourToMode_back`). -/

namespace Sys2Proof.Machine

/-! ### A step on any word of a row -/

/-- A term that no request word decodes to is an illegal request (the model's reading, log 5). -/
theorem exec_of_illFormed {i : Instr} (hwf : i.wf = false) (s : State) : exec i s = raise .illegalRequest s := by
  cases i with
  | hourEnc tag a | hourNorm to24 tag a =>
    cases tag with
    | none => rfl
    | _ => cases hwf
  | almwkPack a code pol =>
    rw [wf_almwkPack] at hwf
    exact if_pos (by rw [hwf, Bool.not_false])
  | _ => cases hwf

/-- `step_of_match` without its check of the operands: both sides answer ILLEGAL_REQUEST where R86 or R87 fails. -/
theorem step_of_row {s : State} {op : Op} (hm : s.req &&& op.format.mask = op.matchWord) :
    step s = exec (instrOf op (fieldsOf s.req)) s := by
  cases hwf : (instrOf op (fieldsOf s.req)).wf with
  | true => exact step_of_match hm hwf
  | false =>
    obtain ⟨why, hdecode⟩ := decode_of_match_illFormed hm hwf
    rw [step_of_decode_error hdecode, exec_of_illFormed hwf, raise_eq]

/-! ### The statements' words and tag numbers -/

/-- An answer's next state in the statements' form (R88). -/
theorem answer_okWord (result : Half) (rtag : BitVec 2) (rflag : Bool) (s : State) :
    answer result rtag rflag s = .next { s with rsp := Spec.okWord result.toNat rtag.toNat rflag.toNat } := by
  rw [answer_eq, respond_eq, ok_toWord]

theorem raise_invalidInput (s : State) : raise .invalidInput s = .next { s with rsp := Spec.invalidInput } := rfl

theorem raise_illegalRequest (s : State) : raise .illegalRequest s = .next { s with rsp := Spec.illegalRequest } := rfl

/-- The TAG of a request word is the number of the tag that it names (R81). -/
theorem tagOf_eq_tagNumber (w : Word) : Spec.tagOf w = Spec.tagNumber (TagField.ofCode (fieldsOf w).tag) := by
  rw [tagOf_eq, ← tagCode_toNat, tagCode_ofCode]

theorem tagNumber_eq_three_iff (tag : TagField) : Spec.tagNumber tag = 3 ↔ tag = .none := by cases tag <;> decide

theorem exists_tagField_of_ne_none {tag : TagField} (h : tag ≠ .none) : ∃ t, tag = tagField t := by
  apply exists_tagField_of_named
  cases tag with
  | none => exact absurd rfl h
  | _ => rfl

/-- A valid hour has a tag that names a variant (R130). -/
theorem exists_tagField_of_validHour {tag : TagField} {h : Nat} (hv : Spec.validHour (Spec.tagNumber tag) h) :
    ∃ t, tag = tagField t ∧ validHour t h = true := by
  have htag : tag ≠ .none := by
    rintro rfl
    simp [Spec.tagNumber, Spec.validHour] at hv
  obtain ⟨t, rfl⟩ := exists_tagField_of_ne_none htag
  exact ⟨t, rfl, (validHour_iff t h).mpr hv⟩

/-- RFLAG of an hour result, on the tag's number (R91). -/
theorem hourFlag_toNat (t : HourTag) :
    (hourFlag t).toNat = if Spec.tagNumber (tagField t) = 0 then 1 else 0 := by cases t <;> rfl

/-- An hour result in the statements' form (R91). -/
theorem completeHour_hourWord {th : HourTag × Nat} (h : th.2 ≤ 165) (s : State) :
    completeHour th s = .next { s with rsp := Spec.hourWord (Spec.tagNumber (tagField th.1), th.2) } := by
  rw [completeHour, answer_okWord, half_toNat (by omega), hourTagCode_toNat, hourFlag_toNat, Spec.hourWord]

/-! ### HOUR.ENC -/

/-- The statements' HOURS byte is the model's (R131). -/
theorem hourByte_toNat (t : HourTag) (h : Nat) :
    (hourByte t h).toNat = Spec.hourByte (Spec.tagNumber (tagField t)) h := by
  cases t with
  | h24 => exact bcd_toNat h
  | am | pm => exact (BitVec.toNat_or ..).trans (congrArg _ (bcd_toNat h))

theorem exec_hourEnc_of_valid {tag : TagField} {a : Byte} (hv : Spec.validHour (Spec.tagNumber tag) a.toNat)
    (s : State) :
    exec (.hourEnc tag a) s = .next { s with rsp := (
      Spec.okWord (Spec.hourByte (Spec.tagNumber tag) a.toNat) 0 (if Spec.tagNumber tag = 0 then 1 else 0)) } := by
  obtain ⟨t, rfl, hvalid⟩ := exists_tagField_of_validHour hv
  rw [exec, execHourEnc_tagField, if_pos hvalid, answer_okWord, zext16_toNat, hourByte_toNat, hourFlag_toNat]
  rfl

theorem exec_hourEnc_of_invalid {tag : TagField} {a : Byte} (htag : tag ≠ .none)
    (hv : ¬ Spec.validHour (Spec.tagNumber tag) a.toNat) (s : State) :
    exec (.hourEnc tag a) s = .next { s with rsp := Spec.invalidInput } := by
  obtain ⟨t, rfl⟩ := exists_tagField_of_ne_none htag
  rw [← validHour_iff] at hv
  rw [exec, execHourEnc_tagField, if_neg hv, raise_invalidInput]

theorem exec_hourEnc_none (a : Byte) (s : State) :
    exec (.hourEnc .none a) s = .next { s with rsp := Spec.illegalRequest } :=
  (exec_of_illFormed rfl s).trans (raise_illegalRequest s)

/-- HOUR.ENC's answer for every tag and byte, in the order of the checks (R86, R131). -/
theorem exec_hourEnc_eq (tag : TagField) (a : Byte) (s : State) :
    exec (.hourEnc tag a) s = .next { s with rsp := (
      if Spec.tagNumber tag = 3 then Spec.illegalRequest
      else if Spec.validHour (Spec.tagNumber tag) a.toNat then
        Spec.okWord (Spec.hourByte (Spec.tagNumber tag) a.toNat) 0 (if Spec.tagNumber tag = 0 then 1 else 0)
      else Spec.invalidInput) } := by
  by_cases htag : tag = .none
  · subst htag
    exact exec_hourEnc_none a s
  rw [if_neg (mt (tagNumber_eq_three_iff tag).mp htag)]
  by_cases hv : Spec.validHour (Spec.tagNumber tag) a.toNat
  · rw [if_pos hv, exec_hourEnc_of_valid hv]
  · rw [if_neg hv, exec_hourEnc_of_invalid htag hv]

/-- Settles O3: a valid hour's byte by its tag; a word of HOUR.ENC's row runs it on the word's tag and low byte. -/
theorem hourEncAnswersHoursByte : Obligations.HourEncAnswersHoursByte := by
  refine ⟨fun a s h => exec_hourEnc_of_valid (.inl ⟨rfl, h⟩) s,
    fun a s h1 h12 => exec_hourEnc_of_valid (.inr ⟨.inl rfl, h1, h12⟩) s,
    fun a s h1 h12 => exec_hourEnc_of_valid (.inr ⟨.inr rfl, h1, h12⟩) s,
    fun tag a s htag hv => exec_hourEnc_of_invalid htag hv s, exec_hourEnc_none, fun s hrow => ?_⟩
  rw [step_of_row (op := .hourEnc) hrow, tagOf_eq_tagNumber, aOf_eq]
  exact exec_hourEnc_eq _ _ s

/-! ### HOUR.DEC -/

theorem exec_hourDec (a : Byte) (s : State) : exec (.hourDec a) s = completeHour (hourOfByte a) s := rfl

theorem exec_hourDec_hourWord (a : Byte) (s : State) :
    exec (.hourDec a) s = .next { s with rsp := Spec.hourWord (Spec.hourOfByte a.toNat) } := by
  rw [exec_hourDec, completeHour_hourWord (hourOfByte_le a), spec_hourOfByte]

/-- Settles O4: a word of HOUR.DEC's row runs it on the word's low byte. -/
theorem hourDecAnswersTaggedHour : Obligations.HourDecAnswersTaggedHour := by
  refine ⟨exec_hourDec_hourWord, fun s hrow => ?_⟩
  rw [step_of_row (op := .hourDec) hrow, aOf_eq]
  exact exec_hourDec_hourWord _ s

/-! ### HOUR.NORM -/

theorem bit_eq_toNat (f : Bool) : Spec.bit f = f.toNat := by cases f <;> rfl

/-- The statements' F of a request word is its bit as a number (R81). -/
theorem fOf_eq_bit (w : Word) : Spec.fOf w = Spec.bit (fieldsOf w).f := by rw [fOf_eq, bit_eq_toNat]

theorem exec_hourNorm_of_valid (to24 : Bool) {tag : TagField} {a : Byte}
    (hv : Spec.validHour (Spec.tagNumber tag) a.toNat) (s : State) :
    exec (.hourNorm to24 tag a) s =
      .next { s with rsp := Spec.hourWord (Spec.hourNorm (Spec.bit to24) (Spec.tagNumber tag) a.toNat) } := by
  obtain ⟨t, rfl, hvalid⟩ := exists_tagField_of_validHour hv
  have hle := validHour_le (validHour_hourToMode (to24 := to24) hvalid)
  rw [exec, execHourNorm_tagField, if_pos hvalid, completeHour_hourWord (by omega), bit_eq_toNat, spec_hourNorm]

/-- A valid hour in a mode is a valid hour, in the statements' numbers (R135). -/
theorem spec_validHour_hourNorm (to24 : Bool) {tag : TagField} {h : Nat}
    (hv : Spec.validHour (Spec.tagNumber tag) h) :
    Spec.validHour (Spec.hourNorm (Spec.bit to24) (Spec.tagNumber tag) h).1
      (Spec.hourNorm (Spec.bit to24) (Spec.tagNumber tag) h).2 := by
  obtain ⟨t, rfl, hvalid⟩ := exists_tagField_of_validHour hv
  rw [bit_eq_toNat, spec_hourNorm]
  exact (validHour_iff _ _).mp (validHour_hourToMode hvalid)

theorem exec_hourNorm_of_invalid (to24 : Bool) {tag : TagField} {a : Byte} (htag : tag ≠ .none)
    (hv : ¬ Spec.validHour (Spec.tagNumber tag) a.toNat) (s : State) :
    exec (.hourNorm to24 tag a) s = .next { s with rsp := Spec.invalidInput } := by
  obtain ⟨t, rfl⟩ := exists_tagField_of_ne_none htag
  rw [← validHour_iff] at hv
  rw [exec, execHourNorm_tagField, if_neg hv, raise_invalidInput]

theorem exec_hourNorm_none (to24 : Bool) (a : Byte) (s : State) :
    exec (.hourNorm to24 .none a) s = .next { s with rsp := Spec.illegalRequest } :=
  (exec_of_illFormed rfl s).trans (raise_illegalRequest s)

/-- HOUR.NORM's answer for every mode, tag and byte, in the order of the checks (R86, R135). -/
theorem exec_hourNorm_eq (to24 : Bool) (tag : TagField) (a : Byte) (s : State) :
    exec (.hourNorm to24 tag a) s = .next { s with rsp := (
      if Spec.tagNumber tag = 3 then Spec.illegalRequest
      else if Spec.validHour (Spec.tagNumber tag) a.toNat then
        Spec.hourWord (Spec.hourNorm (Spec.bit to24) (Spec.tagNumber tag) a.toNat)
      else Spec.invalidInput) } := by
  by_cases htag : tag = .none
  · subst htag
    exact exec_hourNorm_none to24 a s
  rw [if_neg (mt (tagNumber_eq_three_iff tag).mp htag)]
  by_cases hv : Spec.validHour (Spec.tagNumber tag) a.toNat
  · rw [if_pos hv, exec_hourNorm_of_valid to24 hv]
  · rw [if_neg hv, exec_hourNorm_of_invalid to24 htag hv]

/-- Settles O5: a valid hour in its mode; a word of HOUR.NORM's row runs it on the word's mode, tag and low byte. -/
theorem hourNormAnswersHourInMode : Obligations.HourNormAnswersHourInMode := by
  refine ⟨fun to24 tag a s hv => ⟨exec_hourNorm_of_valid to24 hv s, spec_validHour_hourNorm to24 hv⟩,
    fun to24 tag a s htag hv => exec_hourNorm_of_invalid to24 htag hv s, exec_hourNorm_none, fun s hrow => ?_⟩
  rw [step_of_row (op := .hourNorm) hrow, tagOf_eq_tagNumber, aOf_eq, fOf_eq_bit]
  exact exec_hourNorm_eq _ _ _ s

/-! ### The requester's answers -/

/-- A tag and an hour number as the requester's tagged hour. -/
def taggedHour (th : HourTag × Nat) : TaggedHour := ⟨th.1, BitVec.ofNat 8 th.2⟩

@[simp] theorem taggedHour_tag (th : HourTag × Nat) : (taggedHour th).tag = th.1 := rfl

theorem taggedHour_hour_toNat {th : HourTag × Nat} (h : th.2 ≤ 165) : (taggedHour th).hour.toNat = th.2 := by
  rw [taggedHour, BitVec.toNat_ofNat, Nat.mod_eq_of_lt (by omega)]

@[simp] theorem taggedHour_self (x : TaggedHour) : taggedHour (x.tag, x.hour.toNat) = x := by
  rw [taggedHour, BitVec.ofNat_toNat, BitVec.setWidth_eq]

/-- The requester reads RTAG and the low byte of RESULT. -/
theorem askHour_of_completeHour {i : Instr} {th : HourTag × Nat} (hwf : i.wf = true)
    (hexec : ∀ s, exec i s = completeHour th s) : askHour i = some (taggedHour th) := by
  rw [askHour, ask_of_answer hwf hexec]
  simp only [rspTag_ok, rspResult_ok, hourTagOfCode_code, Option.map_some, setWidth_half, taggedHour]

theorem tagField_named (t : HourTag) : (tagField t).named = true := by cases t <;> rfl

/-- The block's own HOURS byte of a valid hour. -/
theorem askByte_hourEnc {x : TaggedHour} (hv : Spec.hourValid x) :
    askByte (.hourEnc (tagField x.tag) x.hour) = some (hourByte x.tag x.hour.toNat) := by
  have hexec (s : State) : exec (.hourEnc (tagField x.tag) x.hour) s =
      answer (zext16 (hourByte x.tag x.hour.toNat)) 0b00#2 (hourFlag x.tag) s :=
    (execHourEnc_tagField x.tag x.hour s).trans (if_pos ((validHour_iff _ _).mpr hv))
  rw [askByte_of_answer ((wf_hourEnc _ _).trans (tagField_named _)) hexec, setWidth_zext16]

/-- The block's own tagged hour of any byte. -/
@[simp] theorem askHour_hourDec (a : Byte) : askHour (.hourDec a) = some (taggedHour (hourOfByte a)) :=
  askHour_of_completeHour rfl (exec_hourDec a)

/-- The block's own conversion of a valid hour. -/
theorem askHour_hourNorm (to24 : Bool) {x : TaggedHour} (hv : Spec.hourValid x) :
    askHour (.hourNorm to24 (tagField x.tag) x.hour) = some (taggedHour (hourToMode to24 x.tag x.hour.toNat)) :=
  askHour_of_completeHour ((wf_hourNorm _ _ _).trans (tagField_named _)) fun s =>
    (execHourNorm_tagField to24 x.tag x.hour s).trans (if_pos ((validHour_iff _ _).mpr hv))

/-- The block's own conversion of a valid hour is a valid hour (R135). -/
theorem hourValid_hourToMode (to24 : Bool) {x : TaggedHour} (hv : Spec.hourValid x) :
    Spec.hourValid (taggedHour (hourToMode to24 x.tag x.hour.toNat)) := by
  have hvalid := validHour_hourToMode (to24 := to24) ((validHour_iff _ _).mpr hv)
  have hle := validHour_le hvalid
  rw [Spec.hourValid, ← validHour_iff, taggedHour_hour_toNat (by omega)]
  exact hvalid

/-- A conversion of a conversion, through the block's own answers. -/
theorem askHour_hourNorm_twice (m n : Bool) {x : TaggedHour} (hv : Spec.hourValid x) :
    ∃ y : TaggedHour, askHour (.hourNorm m (tagField x.tag) x.hour) = some y
      ∧ askHour (.hourNorm n (tagField y.tag) y.hour) = some (taggedHour
          (hourToMode n (hourToMode m x.tag x.hour.toNat).1 (hourToMode m x.tag x.hour.toNat).2)) := by
  have hle := validHour_le (validHour_hourToMode (to24 := m) ((validHour_iff _ _).mpr hv))
  refine ⟨_, askHour_hourNorm m hv, ?_⟩
  rw [askHour_hourNorm n (hourValid_hourToMode m hv), taggedHour_hour_toNat (by omega), taggedHour_tag]

/-! ### HOUR.DEC's bounds and HOUR.NORM's table -/

/-- A masked byte decodes to no more than the mask's high nibble in tens and 15 units. -/
theorem dec_and_le (a mask : Byte) : dec (a &&& mask) ≤ mask.toNat / 16 * 10 + 15 := by
  have hle : a.toNat &&& mask.toNat ≤ mask.toNat := Nat.and_le_right
  rw [dec_eq, BitVec.toNat_and]
  omega

/-- The largest decoded hours: bit 6 is clear in a 24-hour byte, bits 6 and 5 are masked in a 12-hour byte (R134). -/
theorem hourOfByte_bounds (a : Byte) :
    ((hourOfByte a).1 = .h24 → (hourOfByte a).2 ≤ 125) ∧ ((hourOfByte a).1 ≠ .h24 → (hourOfByte a).2 ≤ 105) := by
  unfold hourOfByte
  split
  · refine ⟨fun h => ?_, fun _ => dec_and_le a 0x9F#8⟩
    split_ifs at h
  · exact ⟨fun _ => dec_and_le a 0xBF#8, fun h => absurd rfl h⟩

/-- Settles O39: each answer is the decoded hour, and the four bytes are evaluated. -/
theorem hourDecIsTotalAndBounded : Obligations.HourDecIsTotalAndBounded := by
  refine ⟨fun a => ⟨taggedHour (hourOfByte a), askHour_hourDec a, ?_⟩, askHour_hourDec _, askHour_hourDec _,
    askHour_hourDec _, askHour_hourDec _⟩
  rw [taggedHour_hour_toNat (hourOfByte_le a)]
  exact hourOfByte_bounds a

/-- The block's conversion of a valid hour, where the table gives the hour in the target mode. -/
theorem askHour_hourNorm_eq {to24 : Bool} {t u : HourTag} {h k : Byte}
    (hv : Spec.validHour (Spec.tagNumber (tagField t)) h.toNat) (hrow : hourToMode to24 t h.toNat = (u, k.toNat)) :
    askHour (.hourNorm to24 (tagField t) h) = some ⟨u, k⟩ := by
  rw [askHour_hourNorm to24 (x := ⟨t, h⟩) hv, hrow, taggedHour_self ⟨u, k⟩]

/-! The branches of the conversion (R135). -/

theorem hourToMode_am_of_le_11 {h : Nat} (h11 : h ≤ 11) : hourToMode true .am h = (.h24, h) := by
  rw [hourToMode, if_pos rfl, hourTo24, if_neg (by omega)]

theorem hourToMode_pm_of_le_11 {h : Nat} (h11 : h ≤ 11) : hourToMode true .pm h = (.h24, h + 12) := by
  rw [hourToMode, if_pos rfl, hourTo24, if_neg (by omega)]

theorem hourToMode_h24_of_morning {h : Nat} (h1 : 1 ≤ h) (h11 : h ≤ 11) : hourToMode false .h24 h = (.am, h) := by
  rw [hourToMode, if_neg Bool.false_ne_true, hourTo12, if_neg (by omega), if_pos h11]

theorem hourToMode_h24_of_afternoon {h : Nat} (h13 : 13 ≤ h) : hourToMode false .h24 h = (.pm, h - 12) := by
  rw [hourToMode, if_neg Bool.false_ne_true, hourTo12, if_neg (by omega), if_neg (by omega), if_neg (by omega)]

/-- Settles O40: the rows with one hour are evaluated, each of the others is one branch of the conversion. -/
theorem hourNormTable : Obligations.HourNormTable := by
  refine ⟨askHour_hourNorm_eq (t := .am) (by decide) rfl,
    fun h h1 h11 => askHour_hourNorm_eq (t := .am) (.inr ⟨.inl rfl, h1, by omega⟩) (hourToMode_am_of_le_11 h11),
    askHour_hourNorm_eq (t := .pm) (by decide) rfl,
    fun h h1 h11 => askHour_hourNorm_eq (t := .pm) (.inr ⟨.inr rfl, h1, by omega⟩) ?pm,
    askHour_hourNorm_eq (t := .h24) (by decide) rfl,
    fun h h1 h11 => askHour_hourNorm_eq (t := .h24) (.inl ⟨rfl, by omega⟩) (hourToMode_h24_of_morning h1 h11),
    askHour_hourNorm_eq (t := .h24) (by decide) rfl,
    fun h h13 h23 => askHour_hourNorm_eq (t := .h24) (.inl ⟨rfl, h23⟩) ?afternoon⟩
  case pm =>
    have hsum : (h + 12#8).toNat = h.toNat + 12 :=
      BitVec.toNat_add_of_lt (by simp only [BitVec.toNat_ofNat]; omega)
    rw [hourToMode_pm_of_le_11 h11, hsum]
  case afternoon =>
    have hdiff : (h - 12#8).toNat = h.toNat - 12 :=
      BitVec.toNat_sub_of_le (BitVec.le_def.mpr (by simp only [BitVec.toNat_ofNat]; omega))
    rw [hourToMode_h24_of_afternoon h13, hdiff]

/-! ### The digits and the flag bits of an HOURS byte -/

/-- A byte below 2^k has no bit from `k` up. -/
theorem getLsbD_eq_false_of_lt {b : Byte} {k i : Nat} (hb : b.toNat < 2 ^ k) (hk : k ≤ i) : b.getLsbD i = false :=
  Nat.testBit_lt_two_pow (hb.trans_le (Nat.pow_le_pow_right (by decide) hk))

/-- A mask keeps a byte whose bits it has. -/
theorem and_eq_self_of_lt {b mask : Byte} {k : Nat} (hb : b.toNat < 2 ^ k) (hmask : ∀ i < k, mask.getLsbD i = true) :
    b &&& mask = b := by
  apply BitVec.eq_of_getLsbD_eq
  intro i _
  rw [BitVec.getLsbD_and]
  by_cases hi : i < k
  · rw [hmask i hi, Bool.and_true]
  · rw [getLsbD_eq_false_of_lt hb (by omega), Bool.false_and]

/-- In 24-hour form the digits leave bit 6, H24_H12, clear. -/
theorem hourOfByte_of_lt {b : Byte} (hb : b.toNat < 2 ^ 6) : hourOfByte b = (.h24, dec b) := by
  rw [hourOfByte, getLsbD_eq_false_of_lt hb (le_refl 6), if_neg Bool.false_ne_true,
    and_eq_self_of_lt hb (by decide)]

/-- The mask of 12-hour format strips the flags and keeps the digits. -/
theorem or_and_0x9F {flags b : Byte} (hflags : 0x9F#8 &&& flags = 0#8) (hb : b.toNat < 2 ^ 5) :
    (flags ||| b) &&& 0x9F#8 = b := by
  rw [BitVec.and_comm, BitVec.and_or_distrib_left, hflags, BitVec.zero_or, BitVec.and_comm,
    and_eq_self_of_lt hb (by decide)]

/-! In 12-hour form the digits leave bit 5, AM_PM, as the flags have it. -/

theorem hourOfByte_am_flags {b : Byte} (hb : b.toNat < 2 ^ 5) : hourOfByte (0x40#8 ||| b) = (.am, dec b) := by
  have hampm := getLsbD_eq_false_of_lt hb (le_refl 5)
  rw [hourOfByte, or_and_0x9F rfl hb, BitVec.getLsbD_or, BitVec.getLsbD_or, hampm]
  rfl

theorem hourOfByte_pm_flags {b : Byte} (hb : b.toNat < 2 ^ 5) : hourOfByte (0x60#8 ||| b) = (.pm, dec b) := by
  rw [hourOfByte, or_and_0x9F rfl hb, BitVec.getLsbD_or, BitVec.getLsbD_or]
  rfl

/-- The HOURS byte of a 12-hour value is its flags plus its digits. -/
theorem flags_or_toNat {b : Byte} (hb : b.toNat < 2 ^ 5) :
    (0x40#8 ||| b).toNat = 0x40 + b.toNat ∧ (0x60#8 ||| b).toNat = 0x60 + b.toNat := by
  simp only [BitVec.toNat_or]
  exact ⟨(Nat.two_pow_add_eq_or_of_lt hb 2).symm, (Nat.two_pow_add_eq_or_of_lt hb 3).symm⟩

theorem validHour_12_bounds {t : HourTag} {h : Nat} (ht : t ≠ .h24) (hv : validHour t h = true) : 1 ≤ h ∧ h ≤ 12 := by
  cases t with
  | h24 => exact absurd rfl ht
  | am | pm => simpa [validHour] using hv

theorem bcd_toNat_of_le_99 {n : Nat} (hn : n ≤ 99) : (bcd n).toNat = n / 10 * 16 + n % 10 := by
  rw [bcd_toNat, Nat.mod_eq_of_lt (by omega)]

/-- Up to 99 the encoding keeps the order. -/
theorem bcd_toNat_le {m n : Nat} (hmn : m ≤ n) (hn : n ≤ 99) : (bcd m).toNat ≤ (bcd n).toNat := by
  have htens : m / 10 ≤ n / 10 := Nat.div_le_div_right hmn
  rw [bcd_toNat_of_le_99 (hmn.trans hn), bcd_toNat_of_le_99 hn]
  omega

/-- The digits of a 24-hour value stay below H24_H12. -/
theorem bcd_le_of_le_23 {h : Nat} (h23 : h ≤ 23) : (bcd h).toNat ≤ 0x23 := bcd_toNat_le h23 (by decide)

/-- The digits of a 12-hour value stay below AM_PM. -/
theorem bcd_le_of_le_12 {h : Nat} (h12 : h ≤ 12) : (bcd h).toNat ≤ 0x12 := bcd_toNat_le h12 (by decide)

/-- Decoding the HOURS byte of a valid hour gives the hour back (R137, law 1). -/
theorem hourOfByte_hourByte {t : HourTag} {h : Nat} (hv : validHour t h = true) :
    hourOfByte (hourByte t h) = (t, h) := by
  have h23 := validHour_le hv
  have hdec : dec (bcd h) = h := dec_bcd (by omega)
  cases t with
  | h24 => rw [hourByte, hourOfByte_of_lt ((bcd_le_of_le_23 h23).trans_lt (by decide)), hdec]
  | am =>
    obtain ⟨-, h12⟩ := validHour_12_bounds (by decide) hv
    rw [hourByte, hourOfByte_am_flags ((bcd_le_of_le_12 h12).trans_lt (by decide)), hdec]
  | pm =>
    obtain ⟨-, h12⟩ := validHour_12_bounds (by decide) hv
    rw [hourByte, hourOfByte_pm_flags ((bcd_le_of_le_12 h12).trans_lt (by decide)), hdec]

/-- The HOURS bytes of valid hours have a digit in the low nibble, and one range for each tag (R137, law 5). -/
theorem hourByte_ranges {t : HourTag} {h : Nat} (hv : validHour t h = true) :
    (hourByte t h).toNat % 16 ≤ 9
    ∧ (t = .h24 → (hourByte t h).toNat ≤ 0x23)
    ∧ (t = .am → 0x41 ≤ (hourByte t h).toNat ∧ (hourByte t h).toNat ≤ 0x52)
    ∧ (t = .pm → 0x61 ≤ (hourByte t h).toNat ∧ (hourByte t h).toNat ≤ 0x72) := by
  have hunits : (bcd h).toNat % 16 ≤ 9 := by
    rw [bcd_mod_16]
    omega
  cases t with
  | h24 =>
    have hle := bcd_le_of_le_23 (validHour_le hv)
    exact ⟨hunits, fun _ => hle, nofun, nofun⟩
  | am | pm =>
    obtain ⟨h1, h12⟩ := validHour_12_bounds (by decide) hv
    have hge : 1 ≤ (bcd h).toNat := bcd_toNat_le h1 (by omega)
    have hle := bcd_le_of_le_12 h12
    obtain ⟨ham, hpm⟩ := flags_or_toNat (hle.trans_lt (by decide))
    refine ⟨?_, nofun, ?_, ?_⟩
    all_goals simp only [hourByte, ham, hpm, reduceCtorEq, false_imp_iff, true_imp_iff]
    all_goals omega

/-! ### The laws of the codec (R137) -/

/-- An hour that is in a mode already is kept. -/
theorem hourToMode_of_hourFlag {to24 : Bool} {t : HourTag} (ht : hourFlag t = to24) (h : Nat) :
    hourToMode to24 t h = (t, h) := by
  subst ht
  cases t <;> rfl

theorem hourFlag_eq_false {t : HourTag} (ht : t ≠ .h24) : hourFlag t = false := by
  cases t with
  | h24 => exact absurd rfl ht
  | am | pm => rfl

/-- A valid hour that is converted to the other mode and back is given back (R136, R137). -/
theorem hourToMode_back {t : HourTag} {h : Nat} (hv : validHour t h = true) :
    hourToMode (hourFlag t) (hourToMode (!hourFlag t) t h).1 (hourToMode (!hourFlag t) t h).2 = (t, h) := by
  cases t with
  | h24 =>
    have h23 := validHour_le hv
    rcases (by omega : h = 0 ∨ (1 ≤ h ∧ h ≤ 11) ∨ h = 12 ∨ 13 ≤ h) with rfl | ⟨h1, h11⟩ | rfl | h13
    · rfl
    · rw [hourFlag, Bool.not_true, hourToMode_h24_of_morning h1 h11, hourToMode_am_of_le_11 h11]
    · rfl
    · rw [hourFlag, Bool.not_true, hourToMode_h24_of_afternoon h13, hourToMode_pm_of_le_11 (by omega),
        Nat.sub_add_cancel (by omega)]
  | am =>
    obtain ⟨h1, h12⟩ := validHour_12_bounds (by decide) hv
    rcases (by omega : h ≤ 11 ∨ h = 12) with h11 | rfl
    · rw [hourFlag, Bool.not_false, hourToMode_am_of_le_11 h11, hourToMode_h24_of_morning h1 h11]
    · rfl
  | pm =>
    obtain ⟨h1, h12⟩ := validHour_12_bounds (by decide) hv
    rcases (by omega : h ≤ 11 ∨ h = 12) with h11 | rfl
    · rw [hourFlag, Bool.not_false, hourToMode_pm_of_le_11 h11, hourToMode_h24_of_afternoon (by omega),
        Nat.add_sub_cancel]
    · rfl

/-- The block's own encoding of a valid hour decodes to the hour. -/
theorem askHour_hourDec_hourByte {x : TaggedHour} (hv : Spec.hourValid x) :
    askHour (.hourDec (hourByte x.tag x.hour.toNat)) = some x := by
  rw [askHour_hourDec, hourOfByte_hourByte ((validHour_iff _ _).mpr hv), taggedHour_self]

/-- The block's own conversion of a valid hour to the other mode and back. -/
theorem askHour_hourNorm_back {x : TaggedHour} (hv : Spec.hourValid x) :
    ∃ y : TaggedHour, askHour (.hourNorm (!hourFlag x.tag) (tagField x.tag) x.hour) = some y
      ∧ askHour (.hourNorm (hourFlag x.tag) (tagField y.tag) y.hour) = some x := by
  obtain ⟨y, hy, hback⟩ := askHour_hourNorm_twice (!hourFlag x.tag) (hourFlag x.tag) hv
  rw [hourToMode_back ((validHour_iff _ _).mpr hv), taggedHour_self] at hback
  exact ⟨y, hy, hback⟩

/-- The block's own conversion of a valid hour is in its mode already when it is converted again. -/
theorem askHour_hourNorm_idem (m : Bool) {x : TaggedHour} (hv : Spec.hourValid x) :
    ∃ y : TaggedHour, askHour (.hourNorm m (tagField x.tag) x.hour) = some y
      ∧ askHour (.hourNorm m (tagField y.tag) y.hour) = some y := by
  obtain ⟨y, hy, hagain⟩ := askHour_hourNorm_twice m m hv
  rw [hourToMode_of_hourFlag (hourFlag_hourToMode ..), ← askHour_hourNorm m hv, hy] at hagain
  exact ⟨y, hy, hagain⟩

/-- Settles O41: the midnight and noon pairs are rows of R136, and injectivity follows from decoding. -/
theorem hourCodecLaws : Obligations.HourCodecLaws := by
  obtain ⟨midnight24, -, noon24, -, midnight12, -, noon12, -⟩ := hourNormTable
  refine ⟨fun x hv => ⟨_, askByte_hourEnc hv, askHour_hourDec_hourByte hv⟩,
    fun h h23 => askHour_hourNorm_back (x := ⟨.h24, h⟩) (.inl ⟨rfl, h23⟩),
    ⟨midnight12, midnight24, noon12, noon24⟩, fun x hv ht => ?back, fun m x hv => askHour_hourNorm_idem m hv,
    fun x y hx hy heq => ?injective, fun x b hv hb => ?ranges⟩
  case back =>
    simpa only [hourFlag_eq_false ht, Bool.not_false] using askHour_hourNorm_back hv
  case injective =>
    rw [askByte_hourEnc hx, askByte_hourEnc hy, Option.some.injEq] at heq
    have hdec := askHour_hourDec_hourByte hx
    rw [heq, askHour_hourDec_hourByte hy, Option.some.injEq] at hdec
    exact hdec.symm
  case ranges =>
    rw [askByte_hourEnc hv, Option.some.injEq] at hb
    rw [← hb]
    exact hourByte_ranges ((validHour_iff _ _).mpr hv)

end Sys2Proof.Machine

/-! ## The time fields (42_time_fields.md)

A packer checks its range and answers one byte; an unpacker is BCD.DEC of a masked byte. `PacksByte` and `DecodesByte`
say this of an operation, and what follows for an evaluation and for the requester is proved from them once. Every round
trip is one fact about bytes, `dec_packed`: the mask of the unpacker keeps the digits and clears the fold. -/

namespace Sys2Proof.Machine

/-! ### Packers -/

/-- The requester stops at a response that is not OK (R99, R222). -/
theorem askByte_of_raise {i : Instr} {cause : Cause} (hwf : i.wf = true)
    (hexec : ∀ s, exec i s = raise cause s) : askByte i = none := by
  have hstatus : cause.status ≠ 0b00#2 := by cases cause <;> decide
  simp only [askByte, ask, eval_encode hwf hexec, rspStatus_raised, if_neg hstatus, Option.map_none]

/-- The operation raises INVALID_INPUT on an operand for which `bad` holds, and answers the byte `v` on any other. -/
def PacksByte (i : Instr) (bad : Prop) [Decidable bad] (v : Byte) : Prop :=
  ∀ s : State, exec i s = if bad then raise .invalidInput s else complete (zext16 v) s

section PacksByte

variable {i : Instr} {bad : Prop} [Decidable bad] {v : Byte} {n : Nat}

/-- A packer's answer in the statements' words. -/
theorem PacksByte.exec_eq (h : PacksByte i bad v) (hv : v.toNat = n) (s : State) :
    exec i s = .next { s with rsp := if bad then Spec.invalidInput else Spec.okWord n 0 0 } := by
  rw [h s]
  split_ifs
  · exact raise_invalidInput s
  · rw [complete_okWord, zext16_toNat, hv]

theorem PacksByte.exec_of_good (h : PacksByte i bad v) (hv : v.toNat = n) (hgood : ¬ bad) (s : State) :
    exec i s = .next { s with rsp := Spec.okWord n 0 0 } := by
  rw [h.exec_eq hv s, if_neg hgood]

theorem PacksByte.exec_of_bad (h : PacksByte i bad v) (hbad : bad) (s : State) :
    exec i s = .next { s with rsp := Spec.invalidInput } := by
  rw [h.exec_eq rfl s, if_pos hbad]

/-- The byte that the requester gets from a packer, or none. -/
theorem PacksByte.askByte_eq (h : PacksByte i bad v) (hwf : i.wf = true) :
    askByte i = if bad then none else some v := by
  by_cases hbad : bad
  · rw [if_pos hbad, askByte_of_raise hwf fun s => (h s).trans (if_pos hbad)]
  · rw [if_neg hbad, askByte_of_answer hwf fun s => (h s).trans (if_neg hbad), setWidth_zext16]

end PacksByte

theorem packsByte_secPack (a : Byte) (st : Bool) :
    PacksByte (.secPack a st) (60 ≤ a.toNat) (bcd a.toNat ||| fold st 7) := fun _ => rfl

theorem packsByte_minPack (a : Byte) : PacksByte (.minPack a) (60 ≤ a.toNat) (bcd a.toNat) := fun _ => rfl

theorem packsByte_wkdayPack (a : Byte) (vbaten : Bool) :
    PacksByte (.wkdayPack a vbaten) (a.toNat < 1 ∨ 7 < a.toNat) (bcd a.toNat ||| fold vbaten 3) := fun _ => rfl

theorem packsByte_dayPack (a : Byte) :
    PacksByte (.dayPack a) (a.toNat < 1 ∨ 31 < a.toNat) (bcd a.toNat) := fun _ => rfl

theorem packsByte_monthPack (a : Byte) :
    PacksByte (.monthPack a) (a.toNat < 1 ∨ 12 < a.toNat) (bcd a.toNat) := fun _ => rfl

theorem packsByte_yearPack (y : Half) :
    PacksByte (.yearPack y) (y.toNat < 2000 ∨ 2099 < y.toNat) (bcd (y.toNat - 2000)) := fun _ => rfl

/-! ### Packed bytes as numbers -/

theorem fold_toNat (f : Bool) {k : Nat} (hk : k < 8) : (fold f k).toNat = Spec.bit f <<< k := by
  revert k
  cases f <;> decide

/-- The statements' byte with a bit folded in is the model's (R150, R155). -/
theorem bcd_or_fold_toNat (n : Nat) (f : Bool) {k : Nat} (hk : k < 8) :
    (bcd n ||| fold f k).toNat = Spec.bcd n ||| Spec.bit f <<< k := by
  rw [BitVec.toNat_or, bcd_toNat, fold_toNat f hk, Spec.bcd]

/-- The digits of a month leave bit 5, LEAPYEAR, clear (R159). -/
theorem spec_bcd_and_leapYear {n : Nat} (h12 : n ≤ 12) : Spec.bcd n &&& 0x20 = 0 := by
  have hlt : (bcd n).toNat < 2 ^ 5 := (bcd_le_of_le_12 h12).trans_lt (by decide)
  rw [bcd_toNat] at hlt
  rw [show 0x20 = 2 ^ 5 from rfl, Nat.and_two_pow, Spec.bcd, Nat.testBit_lt_two_pow hlt, Bool.toNat_false, Nat.zero_mul]

/-! ### What each packer answers -/

/-- Settles O6: a word of SEC.PACK's row runs it on the word's low byte and F. -/
theorem secPackAnswersSecondsByte : Obligations.SecPackAnswersSecondsByte := by
  refine ⟨fun a st s ha => (packsByte_secPack a st).exec_of_good (bcd_or_fold_toNat _ st (by decide)) (by omega) s,
    fun a st s ha => (packsByte_secPack a st).exec_of_bad ha s, fun s hrow => ?_⟩
  rw [step_of_row (op := .secPack) hrow, aOf_eq, fOf_eq_bit]
  exact (packsByte_secPack _ _).exec_eq (bcd_or_fold_toNat _ _ (by decide)) s

/-- Settles O8: a word of MIN.PACK's row runs it on the word's low byte. -/
theorem minPackAnswersMinutesByte : Obligations.MinPackAnswersMinutesByte := by
  refine ⟨fun a s ha => (packsByte_minPack a).exec_of_good (bcd_toNat _) (by omega) s,
    fun a s ha => (packsByte_minPack a).exec_of_bad ha s, fun s hrow => ?_⟩
  rw [step_of_row (op := .minPack) hrow, aOf_eq]
  exact (packsByte_minPack _).exec_eq (bcd_toNat _) s

/-- Settles O9: a word of WKDAY.PACK's row runs it on the word's low byte and F. -/
theorem wkdayPackAnswersWeekdayByte : Obligations.WkdayPackAnswersWeekdayByte := by
  refine ⟨fun a v s h1 h7 => (packsByte_wkdayPack a v).exec_of_good (bcd_or_fold_toNat _ v (by decide)) (by omega) s,
    fun a v s ha => (packsByte_wkdayPack a v).exec_of_bad ha s, fun s hrow => ?_⟩
  rw [step_of_row (op := .wkdayPack) hrow, aOf_eq, fOf_eq_bit]
  exact (packsByte_wkdayPack _ _).exec_eq (bcd_or_fold_toNat _ _ (by decide)) s

/-- Settles O11: a word of DAY.PACK's row runs it on the word's low byte. -/
theorem dayPackAnswersDayByte : Obligations.DayPackAnswersDayByte := by
  refine ⟨fun a s h1 h31 => (packsByte_dayPack a).exec_of_good (bcd_toNat _) (by omega) s,
    fun a s ha => (packsByte_dayPack a).exec_of_bad ha s, fun s hrow => ?_⟩
  rw [step_of_row (op := .dayPack) hrow, aOf_eq]
  exact (packsByte_dayPack _).exec_eq (bcd_toNat _) s

/-- Settles O12: a word of MONTH.PACK's row runs it on the word's low byte, and LEAPYEAR is above a month's digits. -/
theorem monthPackAnswersMonthByte : Obligations.MonthPackAnswersMonthByte := by
  refine ⟨fun a s h1 h12 =>
      ⟨(packsByte_monthPack a).exec_of_good (bcd_toNat _) (by omega) s, spec_bcd_and_leapYear h12⟩,
    fun a s ha => (packsByte_monthPack a).exec_of_bad ha s, fun s hrow => ?_⟩
  rw [step_of_row (op := .monthPack) hrow, aOf_eq]
  exact (packsByte_monthPack _).exec_eq (bcd_toNat _) s

/-- Settles O14: a word of YEAR.PACK's row runs it on the word's whole operand A. -/
theorem yearPackAnswersYearByte : Obligations.YearPackAnswersYearByte := by
  refine ⟨fun y s h2000 h2099 => (packsByte_yearPack y).exec_of_good (bcd_toNat _) (by omega) s,
    fun y s hy => (packsByte_yearPack y).exec_of_bad hy s, fun s hrow => ?_⟩
  rw [step_of_row (op := .yearPack) hrow, argOf_eq]
  exact (packsByte_yearPack _).exec_eq (bcd_toNat _) s

/-! ### Unpackers -/

/-- The operation answers as BCD.DEC does on the byte `b`. -/
def DecodesByte (i : Instr) (b : Byte) : Prop := ∀ s : State, exec i s = exec (.bcdDec b) s

theorem decodesByte_secUnpack (a : Byte) : DecodesByte (.secUnpack a) (a &&& 0x7F#8) := fun _ => rfl

theorem decodesByte_wkdayUnpack (a : Byte) : DecodesByte (.wkdayUnpack a) (a &&& 0xC7#8) := fun _ => rfl

theorem decodesByte_monthUnpack (a : Byte) : DecodesByte (.monthUnpack a) (a &&& 0xDF#8) := fun _ => rfl

/-- An unpacker's answer in the statements' formula, on the masked byte. -/
theorem DecodesByte.exec_okWord {i : Instr} {a mask : Byte} (h : DecodesByte i (a &&& mask)) (s : State) :
    exec i s = .next { s with rsp := Spec.okWord (Spec.dec (a.toNat &&& mask.toNat)) 0 0 } := by
  rw [h s, exec_bcdDec_okWord, BitVec.toNat_and]

/-- The byte that the requester gets from an unpacker. -/
theorem DecodesByte.askByte_eq {i : Instr} {b n : Byte} (h : DecodesByte i b) (hwf : i.wf = true)
    (hdec : dec b = n.toNat) : askByte i = some n := by
  rw [askByte_of_answer hwf fun s => (h s).trans (exec_bcdDec b s), setWidth_half, hdec, BitVec.ofNat_toNat,
    BitVec.setWidth_eq]

/-- Settles O7: a word of SEC.UNPACK's row runs it on the word's low byte. -/
theorem secUnpackAnswersSeconds : Obligations.SecUnpackAnswersSeconds := by
  refine ⟨fun a s => (decodesByte_secUnpack a).exec_okWord s, fun s hrow => ?_⟩
  rw [step_of_row (op := .secUnpack) hrow, aOf_eq]
  exact (decodesByte_secUnpack _).exec_okWord s

/-- Settles O10: a word of WKDAY.UNPACK's row runs it on the word's low byte. -/
theorem wkdayUnpackAnswersWeekday : Obligations.WkdayUnpackAnswersWeekday := by
  refine ⟨fun a s => (decodesByte_wkdayUnpack a).exec_okWord s, fun s hrow => ?_⟩
  rw [step_of_row (op := .wkdayUnpack) hrow, aOf_eq]
  exact (decodesByte_wkdayUnpack _).exec_okWord s

/-- Settles O13: a word of MONTH.UNPACK's row runs it on the word's low byte. -/
theorem monthUnpackAnswersMonth : Obligations.MonthUnpackAnswersMonth := by
  refine ⟨fun a s => (decodesByte_monthUnpack a).exec_okWord s, fun s hrow => ?_⟩
  rw [step_of_row (op := .monthUnpack) hrow, aOf_eq]
  exact (decodesByte_monthUnpack _).exec_okWord s

theorem exec_yearUnpack (a : Byte) (s : State) : exec (.yearUnpack a) s = complete (half (2000 + dec a)) s := rfl

/-- YEAR.UNPACK's answer in the statements' formula (R162). -/
theorem exec_yearUnpack_okWord (a : Byte) (s : State) :
    exec (.yearUnpack a) s = .next { s with rsp := Spec.okWord (2000 + Spec.dec a.toNat) 0 0 } := by
  have hle := dec_le a
  rw [exec_yearUnpack, complete_okWord, half_toNat (by omega), dec_eq, Spec.dec]

/-- Settles O15: a word of YEAR.UNPACK's row runs it on the word's low byte, and a byte decodes to at most 165. -/
theorem yearUnpackAnswersYear : Obligations.YearUnpackAnswersYear := by
  obtain ⟨-, spec_dec_le, -⟩ := bcdDecAnswersDecimal
  refine ⟨exec_yearUnpack_okWord, fun a => ⟨Nat.le_add_right .., Nat.add_le_add_left (spec_dec_le a) 2000⟩,
    fun s hrow => ?_⟩
  rw [step_of_row (op := .yearUnpack) hrow, aOf_eq]
  exact exec_yearUnpack_okWord _ s

/-! ### Each field's unpacker undoes its packer -/

/-- Where the digits of `n` take the low `k` bits, which the mask keeps, and the mask clears what is folded in, decoding
the masked byte gives `n` back. -/
theorem dec_packed {n k : Nat} {flags mask : Byte} (hn : n ≤ 99) (hdigits : (bcd n).toNat < 2 ^ k)
    (hmask : ∀ i < k, mask.getLsbD i = true) (hflags : mask &&& flags = 0#8) :
    dec ((bcd n ||| flags) &&& mask) = n := by
  rw [BitVec.and_comm, BitVec.and_or_distrib_left, hflags, BitVec.or_zero, BitVec.and_comm,
    and_eq_self_of_lt hdigits hmask, dec_bcd (by omega)]

section RoundTrips

variable {a : Byte} (f : Bool)

theorem askByte_secUnpack_packed (h59 : a.toNat ≤ 59) :
    askByte (.secUnpack (bcd a.toNat ||| fold f 7)) = some a := by
  have hdigits : (bcd a.toNat).toNat < 2 ^ 7 := (bcd_toNat_le h59 (by decide)).trans_lt (by decide)
  exact (decodesByte_secUnpack _).askByte_eq rfl
    (dec_packed (by omega) hdigits (by decide) (by cases f <;> decide))

theorem askByte_minUnpack_packed (h59 : a.toNat ≤ 59) :
    askByte (Pseudo.minUnpack (bcd a.toNat)).expand = some a :=
  DecodesByte.askByte_eq (fun _ => rfl) rfl (dec_bcd (by omega))

theorem askByte_wkdayUnpack_packed (h7 : a.toNat ≤ 7) :
    askByte (.wkdayUnpack (bcd a.toNat ||| fold f 3)) = some a := by
  have hdigits : (bcd a.toNat).toNat < 2 ^ 3 := (bcd_toNat_le h7 (by decide)).trans_lt (by decide)
  exact (decodesByte_wkdayUnpack _).askByte_eq rfl
    (dec_packed (by omega) hdigits (by decide) (by cases f <;> decide))

theorem askByte_dayUnpack_packed (h31 : a.toNat ≤ 31) :
    askByte (Pseudo.dayUnpack (bcd a.toNat)).expand = some a :=
  DecodesByte.askByte_eq (fun _ => rfl) rfl (dec_bcd (by omega))

theorem askByte_monthUnpack_packed (h12 : a.toNat ≤ 12) : askByte (.monthUnpack (bcd a.toNat)) = some a := by
  have hdigits : (bcd a.toNat).toNat < 2 ^ 5 := (bcd_le_of_le_12 h12).trans_lt (by decide)
  have hdec := dec_packed (mask := 0xDF#8) (flags := 0#8) (by omega) hdigits (by decide) rfl
  rw [BitVec.or_zero] at hdec
  exact (decodesByte_monthUnpack _).askByte_eq rfl hdec

theorem askHalf_yearUnpack_packed {y : Half} (h2000 : 2000 ≤ y.toNat) (h2099 : y.toNat ≤ 2099) :
    askHalf (.yearUnpack (bcd (y.toNat - 2000))) = some y := by
  rw [askHalf, ask_of_answer rfl (exec_yearUnpack _), Option.map_some, rspResult_ok, dec_bcd (by omega),
    Nat.add_sub_cancel' h2000, half, BitVec.ofNat_toNat, BitVec.setWidth_eq]

end RoundTrips

/-! The bytes that the requester gets from the packers. -/

section Packed

variable (a : Byte) (f : Bool) (y : Half)

theorem askByte_secPack :
    askByte (.secPack a f) = if 60 ≤ a.toNat then none else some (bcd a.toNat ||| fold f 7) :=
  (packsByte_secPack a f).askByte_eq rfl

theorem askByte_minPack : askByte (.minPack a) = if 60 ≤ a.toNat then none else some (bcd a.toNat) :=
  (packsByte_minPack a).askByte_eq rfl

theorem askByte_wkdayPack :
    askByte (.wkdayPack a f) = if a.toNat < 1 ∨ 7 < a.toNat then none else some (bcd a.toNat ||| fold f 3) :=
  (packsByte_wkdayPack a f).askByte_eq rfl

theorem askByte_dayPack :
    askByte (.dayPack a) = if a.toNat < 1 ∨ 31 < a.toNat then none else some (bcd a.toNat) :=
  (packsByte_dayPack a).askByte_eq rfl

theorem askByte_monthPack :
    askByte (.monthPack a) = if a.toNat < 1 ∨ 12 < a.toNat then none else some (bcd a.toNat) :=
  (packsByte_monthPack a).askByte_eq rfl

theorem askByte_yearPack :
    askByte (.yearPack y) = if y.toNat < 2000 ∨ 2099 < y.toNat then none else some (bcd (y.toNat - 2000)) :=
  (packsByte_yearPack y).askByte_eq rfl

end Packed

/-- Settles O44: in range a packer answers its byte, whose digits survive the unpacker's mask. -/
theorem unpackOfPackIsField : Obligations.UnpackOfPackIsField := by
  refine ⟨fun a f h59 => ⟨_, (askByte_secPack a f).trans (if_neg (by omega)), askByte_secUnpack_packed f h59⟩,
    fun a h59 => ⟨_, (askByte_minPack a).trans (if_neg (by omega)), askByte_minUnpack_packed h59⟩,
    fun a f h1 h7 => ⟨_, (askByte_wkdayPack a f).trans (if_neg (by omega)), askByte_wkdayUnpack_packed f h7⟩,
    fun a h1 h31 => ⟨_, (askByte_dayPack a).trans (if_neg (by omega)), askByte_dayUnpack_packed h31⟩,
    fun a h1 h12 => ⟨_, (askByte_monthPack a).trans (if_neg (by omega)), askByte_monthUnpack_packed h12⟩,
    fun y h2000 h2099 =>
      ⟨_, (askByte_yearPack y).trans (if_neg (by omega)), askHalf_yearUnpack_packed h2000 h2099⟩⟩

/-! ### Whole date and time (R163, R164) -/

/-- HOUR.ENC's byte, or none for an hour out of its range. -/
theorem askByte_hourEnc_eq (x : TaggedHour) :
    askByte (.hourEnc (tagField x.tag) x.hour) =
      if Spec.hourValid x then some (hourByte x.tag x.hour.toNat) else none := by
  by_cases hv : Spec.hourValid x
  · rw [if_pos hv, askByte_hourEnc hv]
  · have hexec (s : State) : exec (.hourEnc (tagField x.tag) x.hour) s = raise .invalidInput s :=
      (execHourEnc_tagField x.tag x.hour s).trans (if_neg (mt (validHour_iff _ _).mp hv))
    rw [if_neg hv, askByte_of_raise ((wf_hourEnc _ _).trans (tagField_named _)) hexec]

/-- The seven bytes of a valid date/time (R163). -/
def packedRegs (c : Config.Context) (d : DateTime) : TimeRegs where
  seconds := bcd d.second.toNat ||| fold c.isEnabled 7
  minutes := bcd d.minute.toNat
  hours := hourByte d.hour.tag d.hour.hour.toNat
  weekday := bcd d.weekday.toNat ||| fold c.isBatteryPowerEnabled 3
  day := bcd d.day.toNat
  month := bcd d.month.toNat
  year := bcd (d.year.toNat - 2000)

/-- The seven requests all answer OK exactly for a valid date/time, and then give its seven bytes. -/
theorem packDateTime_eq_some_iff (c : Config.Context) (d : DateTime) (r : TimeRegs) :
    packDateTime c d = some r ↔ Spec.dateTimeValid d ∧ packedRegs c d = r := by
  simp only [packDateTime, Option.bind_eq_bind, Option.bind_eq_some_iff, askByte_secPack, askByte_minPack,
    askByte_hourEnc_eq, askByte_wkdayPack, askByte_dayPack, askByte_monthPack, askByte_yearPack,
    Option.ite_none_left_eq_some, Option.ite_none_right_eq_some, Option.some.injEq]
  constructor
  · rintro ⟨_, ⟨hsecond, rfl⟩, _, ⟨hminute, rfl⟩, _, ⟨hhour, rfl⟩, _, ⟨hweekday, rfl⟩, _, ⟨hday, rfl⟩,
      _, ⟨hmonth, rfl⟩, _, ⟨hyear, rfl⟩, rfl⟩
    refine ⟨⟨⟨?_, ?_, ?_, ?_, ?_, ?_, hhour, ?_, ?_⟩, ?_, ?_⟩, rfl⟩
    all_goals omega
  · rintro ⟨⟨⟨hmonth1, hmonth12, hday1, hday31, hweekday1, hweekday7, hhour, hminute, hsecond⟩, h2000, h2099⟩, rfl⟩
    exact ⟨_, ⟨by omega, rfl⟩, _, ⟨by omega, rfl⟩, _, ⟨hhour, rfl⟩, _, ⟨by omega, rfl⟩, _, ⟨by omega, rfl⟩,
      _, ⟨by omega, rfl⟩, _, ⟨by omega, rfl⟩, rfl⟩

theorem packDateTime_of_valid (c : Config.Context) {d : DateTime} (hv : Spec.dateTimeValid d) :
    packDateTime c d = some (packedRegs c d) :=
  (packDateTime_eq_some_iff c d _).mpr ⟨hv, rfl⟩

/-- A statements' byte that is given by its number. -/
theorem eq_spec_byte {b : Byte} {n : Nat} (h : b.toNat = n) : b = Spec.byte n := by
  rw [← h, Spec.byte, BitVec.ofNat_toNat, BitVec.setWidth_eq]

/-- The seven bytes in the statements' formulas, after the start address (R65). -/
theorem payload_packedRegs (c : Config.Context) (d : DateTime) :
    (packedRegs c d).payload =
      [0x00#8, Spec.byte (Spec.bcd d.second.toNat ||| Spec.bit c.isEnabled <<< 7), Spec.byte (Spec.bcd d.minute.toNat),
        Spec.byte (Spec.hourByte (Spec.tagNumber (tagField d.hour.tag)) d.hour.hour.toNat),
        Spec.byte (Spec.bcd d.weekday.toNat ||| Spec.bit c.isBatteryPowerEnabled <<< 3),
        Spec.byte (Spec.bcd d.day.toNat), Spec.byte (Spec.bcd d.month.toNat),
        Spec.byte (Spec.bcd (d.year.toNat - 2000))] := by
  have hbcd (n : Nat) : bcd n = Spec.byte (Spec.bcd n) := eq_spec_byte (bcd_toNat n)
  rw [TimeRegs.payload, packedRegs, eq_spec_byte (bcd_or_fold_toNat _ c.isEnabled (by decide)),
    eq_spec_byte (bcd_or_fold_toNat _ c.isBatteryPowerEnabled (by decide)), eq_spec_byte (hourByte_toNat ..)]
  simp only [hbcd]
  rfl

/-- Settles O47: the seven requests answer OK exactly for a valid date/time. -/
theorem packDateTimeGivesPayload : Obligations.PackDateTimeGivesPayload := by
  refine ⟨fun c d hv => ?valid, fun c d hv => ?invalid⟩
  case valid => rw [packDateTime_of_valid c hv, Option.map_some, payload_packedRegs]
  case invalid =>
    rw [Option.eq_none_iff_forall_ne_some]
    exact fun r hr => hv ((packDateTime_eq_some_iff c d r).mp hr).1

/-- Settles O48: each of the seven bytes unpacks to its field. -/
theorem unpackOfPackDateTimeIsDateTime : Obligations.UnpackOfPackDateTimeIsDateTime := by
  intro c d hv
  refine ⟨packedRegs c d, packDateTime_of_valid c hv, ?_⟩
  obtain ⟨⟨-, hmonth12, -, hday31, -, hweekday7, hhour, hminute, hsecond⟩, h2000, h2099⟩ := hv
  simp only [unpackDateTime, packedRegs, askByte_secUnpack_packed _ hsecond, askByte_minUnpack_packed hminute,
    askHour_hourDec_hourByte hhour, askByte_wkdayUnpack_packed _ hweekday7, askByte_dayUnpack_packed hday31,
    askByte_monthUnpack_packed hmonth12, askHalf_yearUnpack_packed h2000 h2099, Option.bind_eq_bind, Option.bind_some]

end Sys2Proof.Machine


/-! ## The flag, control-field and trim packers (43_control_trim.md)

BIT.WR and CTRL.SQWFS replace part of a byte. `maskWrite` names BIT.WR's byte, and its bits give what is kept, what is
read back and what the requester's Config operations do. TRIM.PACK keeps a byte up to 128 and reflects the bytes above,
the negative numbers from -127 (`spec_trim_eq`), so it is injective. -/

namespace Sys2Proof.Machine

/-! ### BIT.WR and BIT.TEST -/

/-- The byte that BIT.WR answers (R180). -/
def maskWrite (a mask : Byte) (v : Bool) : Byte := if v then a ||| mask else a &&& ~~~mask

theorem maskWrite_true (a mask : Byte) : maskWrite a mask true = a ||| mask := rfl

theorem maskWrite_false (a mask : Byte) : maskWrite a mask false = a &&& ~~~mask := rfl

theorem exec_bitWr (a mask : Byte) (v : Bool) (s : State) :
    exec (.bitWr a mask v) s = complete (zext16 (maskWrite a mask v)) s := rfl

theorem exec_bitTest (a mask : Byte) (s : State) :
    exec (.bitTest a mask) s = answer 0#16 0b00#2 (maskFlag a mask) s := rfl

/-- The block's own masked write. -/
theorem askByte_bitWr (a mask : Byte) (v : Bool) : askByte (.bitWr a mask v) = some (maskWrite a mask v) := by
  rw [askByte_of_answer rfl (exec_bitWr a mask v), setWidth_zext16]

/-- The block's own test of a byte. -/
theorem askFlag_bitTest (a mask : Byte) : askFlag (.bitTest a mask) = some (maskFlag a mask) := by
  rw [askFlag, ask_of_answer rfl (exec_bitTest a mask), Option.map_some, rspFlag_ok]

theorem exec_bitWr_true (a mask : Byte) (s : State) :
    exec (.bitWr a mask true) s = .next { s with rsp := Spec.okWord (a.toNat ||| mask.toNat) 0 0 } := by
  rw [exec_bitWr, complete_okWord, zext16_toNat, maskWrite_true, BitVec.toNat_or]

theorem exec_bitWr_false (a mask : Byte) (s : State) :
    exec (.bitWr a mask false) s = .next { s with rsp := Spec.okWord (a.toNat &&& (255 - mask.toNat)) 0 0 } := by
  rw [exec_bitWr, complete_okWord, zext16_toNat, maskWrite_false, BitVec.toNat_and, BitVec.toNat_not]

/-- BIT.WR's answer, the value written as F's number (R180). -/
theorem exec_bitWr_okWord (a mask : Byte) (v : Bool) (s : State) :
    exec (.bitWr a mask v) s = .next { s with rsp := (
      if Spec.bit v = 1 then Spec.okWord (a.toNat ||| mask.toNat) 0 0
      else Spec.okWord (a.toNat &&& (255 - mask.toNat)) 0 0) } := by
  cases v with
  | true => exact exec_bitWr_true a mask s
  | false => exact exec_bitWr_false a mask s

/-- Settles O16: a word of BIT.WR's row runs it on the word's low byte, B and F. -/
theorem bitWrAnswersMaskedWrite : Obligations.BitWrAnswersMaskedWrite := by
  refine ⟨exec_bitWr_true, exec_bitWr_false, fun s hrow => ?_⟩
  rw [step_of_row (op := .bitWr) hrow, aOf_eq, bOf_eq, fOf_eq_bit]
  exact exec_bitWr_okWord _ _ _ s

/-- BIT.TEST's answer in the statements' formula (R181). -/
theorem exec_bitTest_okWord (a mask : Byte) (s : State) :
    exec (.bitTest a mask) s =
      .next { s with rsp := Spec.okWord 0 0 (if a.toNat &&& mask.toNat = 0 then 0 else 1) } := by
  have hflag : (maskFlag a mask).toNat = if a.toNat &&& mask.toNat = 0 then 0 else 1 := by
    rw [maskFlag_eq]
    split_ifs with hzero <;> simp [hzero]
  rw [exec_bitTest, answer_okWord, hflag]
  rfl

/-- Settles O17: a word of BIT.TEST's row runs it on the word's low byte and B. -/
theorem bitTestAnswersFlag : Obligations.BitTestAnswersFlag := by
  refine ⟨exec_bitTest_okWord, fun s hrow => ?_⟩
  rw [step_of_row (op := .bitTest) hrow, aOf_eq, bOf_eq]
  exact exec_bitTest_okWord _ _ s

/-- A masked write gives the mask's bits the value and keeps the others (R180). -/
theorem getLsbD_maskWrite (a mask : Byte) (v : Bool) {k : Nat} (hk : k < 8) :
    (maskWrite a mask v).getLsbD k = if mask.getLsbD k then v else a.getLsbD k := by
  cases v with
  | true =>
    rw [maskWrite_true, BitVec.getLsbD_or]
    cases mask.getLsbD k <;> simp
  | false =>
    rw [maskWrite_false, BitVec.getLsbD_and, BitVec.getLsbD_not]
    cases mask.getLsbD k <;> simp [hk]

/-- Of a masked write's byte the mask keeps nothing of the operand. -/
theorem maskWrite_and_mask (a mask : Byte) (v : Bool) : maskWrite a mask v &&& mask = if v then mask else 0#8 := by
  apply BitVec.eq_of_getLsbD_eq
  intro k hk
  rw [BitVec.getLsbD_and, getLsbD_maskWrite a mask v hk]
  cases hbit : mask.getLsbD k with
  | true => cases v <;> simp [hbit]
  | false => cases v <;> simp [hbit]

/-- A test with the mask of a write reads the value written, where the mask has a bit. -/
theorem maskFlag_maskWrite (a : Byte) {mask : Byte} (hmask : mask ≠ 0#8) (v : Bool) :
    maskFlag (maskWrite a mask v) mask = v := by
  rw [maskFlag, maskWrite_and_mask]
  cases v with
  | true => exact bne_iff_ne.mpr hmask
  | false => rfl

theorem one_shiftLeft_ne_zero {k : Nat} (hk : k < 8) : 1#8 <<< k ≠ 0#8 := by
  revert k
  decide

/-- Settles O43: the block's answers are `maskWrite` and `maskFlag`. -/
theorem bitWrKeepsBitsOutsideMask : Obligations.BitWrKeepsBitsOutsideMask := by
  refine ⟨fun a mask v => ⟨_, askByte_bitWr a mask v, fun k => getLsbD_maskWrite a mask v⟩,
    fun a k v hk => ⟨_, askByte_bitWr a _ v, ?_⟩⟩
  rw [askFlag_bitTest, maskFlag_maskWrite a (one_shiftLeft_ne_zero hk)]

/-! ### CTRL.SQWFS -/

theorem exec_ctrlSqwfs (a : Byte) (code : SqwFreq) (s : State) :
    exec (.ctrlSqwfs a code) s = complete (zext16 ((a &&& 0xFC#8) ||| code.code.setWidth 8)) s := rfl

/-- The block's own insertion of a frequency code. -/
theorem askByte_ctrlSqwfs (a : Byte) (code : SqwFreq) :
    askByte (.ctrlSqwfs a code) = some ((a &&& 0xFC#8) ||| code.code.setWidth 8) := by
  rw [askByte_of_answer rfl (exec_ctrlSqwfs a code), setWidth_zext16]

theorem sqwCode_setWidth_toNat (code : SqwFreq) : (code.code.setWidth 8 : Byte).toNat = Spec.freqNumber code := by
  cases code <;> rfl

/-- CTRL.SQWFS's answer in the statements' formula (R182). -/
theorem exec_ctrlSqwfs_okWord (a : Byte) (code : SqwFreq) (s : State) :
    exec (.ctrlSqwfs a code) s =
      .next { s with rsp := Spec.okWord ((a.toNat &&& 0xFC) ||| Spec.freqNumber code) 0 0 } := by
  rw [exec_ctrlSqwfs, complete_okWord, zext16_toNat, BitVec.toNat_or, BitVec.toNat_and, sqwCode_setWidth_toNat]
  rfl

theorem freqNumber_lt_four (code : SqwFreq) : Spec.freqNumber code < 4 := by cases code <;> decide

/-- B of a word of CTRL.SQWFS's row is the number of the frequency that it names: its other bits are reserved (R82). -/
theorem bOf_ctrlSqwfs_row {w : Word} (hrow : w &&& Op.ctrlSqwfs.format.mask = Op.ctrlSqwfs.matchWord) :
    Spec.bOf w = Spec.freqNumber (SqwFreq.ofCode ((fieldsOf w).b.extractLsb' 0 2)) := by
  have hencode := bOf_encode (instrOf .ctrlSqwfs (fieldsOf w))
  rw [encode_instrOf_of_match hrow] at hencode
  exact hencode.trans (sqwCode_setWidth_toNat _)

theorem op_eq_of_code_eq {p q : Op} (h : p.code = q.code) : p = q := by
  rw [← Option.some_inj, ← opOfCode_code p, h, opOfCode_code]

/-- A word with an operation's OP that does not fit the operation's row is an illegal request: no other row has its OP
(R83, R84). -/
theorem step_of_reserved {s : State} {op : Op} (hop : Spec.opOf s.req = op.code.toNat)
    (hrow : s.req &&& op.format.mask ≠ op.matchWord) : step s = .next { s with rsp := Spec.illegalRequest } := by
  have hnone (p : Op) : s.req &&& p.format.mask ≠ p.matchWord := by
    intro hp
    rw [opOf_eq, opCode_of_match hp] at hop
    exact hrow (op_eq_of_code_eq (BitVec.eq_of_toNat_eq hop) ▸ hp)
  obtain ⟨why, hdecode⟩ := decode_of_no_match hnone
  exact step_of_decode_error hdecode

/-- Settles O18: a word of the row has a code up to 3 in B, so a word with a larger B fits no row. -/
theorem ctrlSqwfsInsertsFrequencyCode : Obligations.CtrlSqwfsInsertsFrequencyCode := by
  refine ⟨exec_ctrlSqwfs_okWord, fun s hrow => ?row, fun s hop hb => ?reserved⟩
  case row =>
    rw [step_of_row (op := .ctrlSqwfs) hrow, aOf_eq, bOf_ctrlSqwfs_row hrow, Nat.mod_eq_of_lt (freqNumber_lt_four _)]
    exact exec_ctrlSqwfs_okWord _ _ s
  case reserved =>
    refine step_of_reserved (op := .ctrlSqwfs) hop fun hrow => ?_
    have hlt := freqNumber_lt_four (SqwFreq.ofCode ((fieldsOf s.req).b.extractLsb' 0 2))
    rw [bOf_ctrlSqwfs_row hrow] at hb
    omega

/-! ### The Config operations (R183) -/

/-- Settles O54: a named operation is BIT.WR with its flag's mask, and the cache changes with the write alone. -/
theorem configOperationsActOnCache : Obligations.ConfigOperationsActOnCache := by
  refine ⟨fun c v => ?flags, fun c code => ?frequency, fun c b => ⟨rfl, rfl⟩⟩
  case flags =>
    and_intros
    all_goals exact askByte_bitWr c.config _ v
  case frequency =>
    rw [configByte, askByte_ctrlSqwfs, eq_spec_byte (sqwCode_setWidth_toNat code)]

/-! ### TRIM.PACK -/

theorem exec_trimPack (a : Byte) (s : State) : exec (.trimPack a) s = complete (zext16 (trimByte (s8 a))) s := rfl

/-- The block's own trim byte. -/
theorem askByte_trimPack (a : Byte) : askByte (.trimPack a) = some (trimByte (s8 a)) := by
  rw [askByte_of_answer rfl (exec_trimPack a), setWidth_zext16]

/-- The signed reading of a byte (R9). -/
theorem byte_toInt (a : Byte) : a.toInt = if a.toNat < 128 then (a.toNat : Int) else a.toNat - 256 := by
  rw [BitVec.toInt_eq_toNat_cond]
  split_ifs <;> omega

/-- The bytes above 128 are the signed numbers from -127 to -1. -/
theorem toInt_neg_iff (a : Byte) : a.toInt < 0 ∧ a.toInt ≠ -128 ↔ 128 < a.toNat := by
  have hlt := a.isLt
  rw [byte_toInt]
  split_ifs <;> omega

/-- `~u8(v - 1)` is the magnitude of a negative v (R185). -/
theorem not_sub_one_toNat {a : Byte} (ha : 128 < a.toNat) : (~~~(a - 1#8)).toNat = 256 - a.toNat := by
  have hlt := a.isLt
  rw [BitVec.toNat_not, BitVec.toNat_sub, BitVec.toNat_ofNat]
  omega

/-- The model's trim byte on byte patterns: `u8` undoes `s8` (R184). -/
theorem trimByte_s8 (a : Byte) : trimByte (s8 a) = if 128 < a.toNat then 0x80#8 ||| ~~~(a - 1#8) else a := by
  have hu8 : u8 (s8 a - 1) = a - 1#8 := by
    rw [u8, s8, Int.sub_eq_add_neg, BitVec.ofInt_add, BitVec.ofInt_toInt, BitVec.sub_eq_add_neg]
    rfl
  rw [trimByte, hu8, u8, s8, BitVec.ofInt_toInt]
  simp only [toInt_neg_iff]

theorem trimByte_toNat (a : Byte) : (trimByte (s8 a)).toNat = Spec.trim a.toNat := by
  rw [trimByte_s8, Spec.trim]
  split_ifs with ha
  · rw [BitVec.toNat_or, not_sub_one_toNat ha, show 256 - a.toNat = 255 - (a.toNat - 1) by omega]
    rfl
  · rfl

/-- TRIM.PACK's answer in the statements' formula (R184). -/
theorem exec_trimPack_okWord (a : Byte) (s : State) :
    exec (.trimPack a) s = .next { s with rsp := Spec.okWord (Spec.trim a.toNat) 0 0 } := by
  rw [exec_trimPack, complete_okWord, zext16_toNat, trimByte_toNat]

/-- Settles O19: a word of TRIM.PACK's row runs it on the word's low byte. -/
theorem trimPackAnswersTrimByte : Obligations.TrimPackAnswersTrimByte := by
  refine ⟨exec_trimPack_okWord, fun s hrow => ?_⟩
  rw [step_of_row (op := .trimPack) hrow, aOf_eq]
  exact exec_trimPack_okWord _ s

/-- Above 128 the sign bit is added to the magnitude: the trim byte reflects 129 to 255. -/
theorem spec_trim_eq {n : Nat} (hn : n < 256) : Spec.trim n = if 128 < n then 384 - n else n := by
  rw [Spec.trim]
  split_ifs with h
  · have hmag : 255 - (n - 1) < 2 ^ 7 := by omega
    have hor : 2 ^ 7 * 1 + (255 - (n - 1)) = 0x80 ||| (255 - (n - 1)) := Nat.two_pow_add_eq_or_of_lt hmag 1
    omega
  · rfl

theorem trimByte_injective {a b : Byte} (h : trimByte (s8 a) = trimByte (s8 b)) : a = b := by
  have htrim := congrArg BitVec.toNat h
  have ha := a.isLt
  have hb := b.isLt
  rw [trimByte_toNat, trimByte_toNat, spec_trim_eq ha, spec_trim_eq hb] at htrim
  apply BitVec.eq_of_toNat_eq
  split_ifs at htrim <;> omega

/-- The magnitude of a signed byte from -127 to -1. -/
theorem natAbs_toInt_of_gt {a : Byte} (ha : 128 < a.toNat) : a.toInt.natAbs = 256 - a.toNat := by
  have hlt := a.isLt
  rw [byte_toInt, if_neg (by omega)]
  omega

/-- A byte that reads as a natural number is that number. -/
theorem toInt_nonneg {a : Byte} (h : 0 ≤ a.toInt) : a.toNat < 128 ∧ a.toInt.natAbs = a.toNat := by
  have hlt := a.isLt
  rw [byte_toInt] at h ⊢
  split_ifs at h ⊢ <;> omega

/-- Settles O42: the answer on the negative numbers, on the others, and its injectivity. -/
theorem trimPackIsSignMagnitude : Obligations.TrimPackIsSignMagnitude := by
  unfold Obligations.TrimPackIsSignMagnitude
  simp only [askByte_trimPack, Option.some.injEq]
  refine ⟨fun a hneg hmin => ?negative, fun a hnonneg => ?nonnegative, by decide, fun a b => trimByte_injective⟩
  case negative =>
    have ha := (toInt_neg_iff a).mp ⟨hneg, hmin⟩
    have hmag := not_sub_one_toNat ha
    rw [natAbs_toInt_of_gt ha]
    refine ⟨eq_spec_byte ?_, by omega, hmag⟩
    rw [trimByte_s8, if_pos ha, BitVec.toNat_or, hmag]
    rfl
  case nonnegative =>
    obtain ⟨hlt, habs⟩ := toInt_nonneg hnonneg
    rw [habs, trimByte_s8, if_neg (by omega)]
    exact ⟨eq_spec_byte rfl, hlt⟩

end Sys2Proof.Machine


/-! ## Alarms, the power-fail log and EEPROM protection (44_alarm_powerfail_eeprom.md)

ALMWK.PACK is a packer once its match code is used, so the facts about packers apply to it; an unused code is refused
ahead of the range check. The requester's alarm packs exactly where its fields are in range and its code is used
(`packAlarm_eq_some_iff`), and what is written before it depends on the polarity alone (`polarityRewrite`). -/

namespace Sys2Proof.Machine

/-! ### ALMWK.PACK -/

/-- The byte that ALMWK.PACK answers for a weekday in range and a used match code (R200). -/
def alarmWkdayByte (a : Byte) (code : MatchCode) (pol : Bool) : Byte :=
  bcd a.toNat ||| (code.code.setWidth 8 <<< 4) ||| fold pol 7

theorem matchCode_setWidth_toNat (code : MatchCode) : (code.code.setWidth 8 : Byte).toNat = Spec.matchNumber code := by
  cases code <;> rfl

theorem matchCode_shift_toNat (code : MatchCode) :
    (code.code.setWidth 8 <<< 4 : Byte).toNat = Spec.matchNumber code <<< 4 := by
  cases code <;> rfl

/-- The statements' alarm weekday byte is the model's. -/
theorem alarmWkdayByte_toNat (a : Byte) (code : MatchCode) (pol : Bool) :
    (alarmWkdayByte a code pol).toNat =
      Spec.bcd a.toNat ||| Spec.matchNumber code <<< 4 ||| Spec.bit pol <<< 7 := by
  rw [alarmWkdayByte, BitVec.toNat_or, BitVec.toNat_or, bcd_toNat, matchCode_shift_toNat, fold_toNat pol (by decide),
    Spec.bcd]

theorem used_iff (code : MatchCode) : code.used = true ↔ code ≠ .unused5 ∧ code ≠ .unused6 := by
  cases code <;> decide

theorem not_used_iff (code : MatchCode) : code.used = false ↔ code = .unused5 ∨ code = .unused6 := by
  cases code <;> decide

theorem not_used_iff_matchNumber (code : MatchCode) :
    code.used = false ↔ Spec.matchNumber code = 5 ∨ Spec.matchNumber code = 6 := by
  cases code <;> decide

theorem packsByte_almwkPack {code : MatchCode} (hused : code.used = true) (a : Byte) (pol : Bool) :
    PacksByte (.almwkPack a code pol) (a.toNat < 1 ∨ 7 < a.toNat) (alarmWkdayByte a code pol) :=
  execAlmwkPack_of_used hused a pol

theorem exec_almwkPack_of_unused {code : MatchCode} (hunused : code.used = false) (a : Byte) (pol : Bool) (s : State) :
    exec (.almwkPack a code pol) s = .next { s with rsp := Spec.illegalRequest } :=
  (exec_of_illFormed ((wf_almwkPack a code pol).trans hunused) s).trans (raise_illegalRequest s)

/-- ALMWK.PACK's answer for every operand, in the order of the checks (R87, R200, R221). -/
theorem exec_almwkPack_eq (a : Byte) (code : MatchCode) (pol : Bool) (s : State) :
    exec (.almwkPack a code pol) s = .next { s with rsp := (
      if Spec.matchNumber code = 5 ∨ Spec.matchNumber code = 6 then Spec.illegalRequest
      else if a.toNat < 1 ∨ 7 < a.toNat then Spec.invalidInput
      else Spec.okWord (Spec.bcd a.toNat ||| Spec.matchNumber code <<< 4 ||| Spec.bit pol <<< 7) 0 0) } := by
  simp only [← not_used_iff_matchNumber]
  cases hused : code.used with
  | false => exact exec_almwkPack_of_unused hused a pol s
  | true => exact (packsByte_almwkPack hused a pol).exec_eq (alarmWkdayByte_toNat a code pol) s

theorem matchNumber_lt_eight (code : MatchCode) : Spec.matchNumber code < 8 := by cases code <;> decide

/-- B of a word of ALMWK.PACK's row is the number of the match code that it names: its other bits are reserved (R82). -/
theorem bOf_almwkPack_row {w : Word} (hrow : w &&& Op.almwkPack.format.mask = Op.almwkPack.matchWord) :
    Spec.bOf w = Spec.matchNumber (MatchCode.ofCode ((fieldsOf w).b.extractLsb' 0 3)) := by
  have hencode := bOf_encode (instrOf .almwkPack (fieldsOf w))
  rw [encode_instrOf_of_match hrow] at hencode
  exact hencode.trans (matchCode_setWidth_toNat _)

/-- Settles O20: a word of the row has a match code in B, so a word with a larger B fits no row. -/
theorem almwkPackAnswersAlarmWeekdayByte : Obligations.AlmwkPackAnswersAlarmWeekdayByte := by
  refine ⟨fun a code pol s h5 h6 h1 h7 => ?valid, fun a code pol s h5 h6 ha => ?invalid,
    fun a code pol s hcode => exec_almwkPack_of_unused ((not_used_iff code).mpr hcode) a pol s,
    fun s hrow => ?row, fun s hop hb => ?reserved⟩
  case valid =>
    have hpacks := packsByte_almwkPack ((used_iff code).mpr ⟨h5, h6⟩) a pol
    exact hpacks.exec_of_good (alarmWkdayByte_toNat a code pol) (by omega) s
  case invalid => exact (packsByte_almwkPack ((used_iff code).mpr ⟨h5, h6⟩) a pol).exec_of_bad ha s
  case row =>
    rw [step_of_row (op := .almwkPack) hrow, aOf_eq, fOf_eq_bit, bOf_almwkPack_row hrow,
      Nat.mod_eq_of_lt (matchNumber_lt_eight _)]
    exact exec_almwkPack_eq _ _ _ s
  case reserved =>
    refine step_of_reserved (op := .almwkPack) hop fun hrow => ?_
    have hlt := matchNumber_lt_eight (MatchCode.ofCode ((fieldsOf s.req).b.extractLsb' 0 3))
    rw [bOf_almwkPack_row hrow] at hb
    omega

/-! ### PF.WKDAY.UNPACK and PF.MONTH.UNPACK -/

theorem exec_pfWkdayUnpack (a : Byte) (s : State) :
    exec (.pfWkdayUnpack a) s = complete (half (a.extractLsb' 5 3).toNat) s := rfl

/-- The top three bits of a byte as a quotient. -/
theorem extractLsb'_5_3_toNat (a : Byte) : (a.extractLsb' 5 3).toNat = a.toNat / 32 := by
  have hlt := a.isLt
  rw [BitVec.extractLsb'_toNat, Nat.shiftRight_eq_div_pow]
  omega

/-- PF.WKDAY.UNPACK's answer in the statements' formula (R204). -/
theorem exec_pfWkdayUnpack_okWord (a : Byte) (s : State) :
    exec (.pfWkdayUnpack a) s = .next { s with rsp := Spec.okWord (a.toNat / 32) 0 0 } := by
  have hlt := a.isLt
  rw [exec_pfWkdayUnpack, complete_okWord, extractLsb'_5_3_toNat, half_toNat (by omega)]

/-- Settles O21: a word of PF.WKDAY.UNPACK's row runs it on the word's low byte. -/
theorem pfWkdayUnpackAnswersTopBits : Obligations.PfWkdayUnpackAnswersTopBits := by
  refine ⟨exec_pfWkdayUnpack_okWord, fun s hrow => ?_⟩
  rw [step_of_row (op := .pfWkdayUnpack) hrow, aOf_eq]
  exact exec_pfWkdayUnpack_okWord _ s

theorem decodesByte_pfMonthUnpack (a : Byte) : DecodesByte (.pfMonthUnpack a) (a &&& 0x1F#8) := fun _ => rfl

/-- Settles O22: a word of PF.MONTH.UNPACK's row runs it on the word's low byte. -/
theorem pfMonthUnpackAnswersMonth : Obligations.PfMonthUnpackAnswersMonth := by
  refine ⟨fun a s => (decodesByte_pfMonthUnpack a).exec_okWord s, fun s hrow => ?_⟩
  rw [step_of_row (op := .pfMonthUnpack) hrow, aOf_eq]
  exact (decodesByte_pfMonthUnpack _).exec_okWord s

/-! ### EEWP.PACK -/

theorem exec_eewpPack (level : EepromLevel) (s : State) :
    exec (.eewpPack level) s = complete (zext16 (level.code.setWidth 8 <<< 2)) s := rfl

theorem levelCode_setWidth_toNat (level : EepromLevel) :
    (level.code.setWidth 16 : Half).toNat = Spec.levelNumber level := by
  cases level <;> rfl

theorem levelCode_shift_toNat (level : EepromLevel) :
    (level.code.setWidth 8 <<< 2 : Byte).toNat = Spec.levelNumber level <<< 2 := by
  cases level <;> rfl

/-- EEWP.PACK's answer in the statements' formula (R208). -/
theorem exec_eewpPack_okWord (level : EepromLevel) (s : State) :
    exec (.eewpPack level) s = .next { s with rsp := Spec.okWord (Spec.levelNumber level <<< 2) 0 0 } := by
  rw [exec_eewpPack, complete_okWord, zext16_toNat, levelCode_shift_toNat]

theorem levelNumber_lt_four (level : EepromLevel) : Spec.levelNumber level < 4 := by cases level <;> decide

/-- A of a word of EEWP.PACK's row is the number of the level that it names: its other bits are reserved (R82). -/
theorem argOf_eewpPack_row {w : Word} (hrow : w &&& Op.eewpPack.format.mask = Op.eewpPack.matchWord) :
    Spec.argOf w = Spec.levelNumber (EepromLevel.ofCode ((fieldsOf w).arg.extractLsb' 0 2)) := by
  have hencode := argOf_encode (instrOf .eewpPack (fieldsOf w))
  rw [encode_instrOf_of_match hrow] at hencode
  exact hencode.trans (levelCode_setWidth_toNat _)

/-- Settles O23: a word of the row has a level up to 3 in A, so a word with a larger A fits no row. -/
theorem eewpPackAnswersProtectionByte : Obligations.EewpPackAnswersProtectionByte := by
  refine ⟨exec_eewpPack_okWord, fun s hrow => ?row, fun s hop harg => ?reserved⟩
  case row =>
    rw [step_of_row (op := .eewpPack) hrow, argOf_eewpPack_row hrow, Nat.mod_eq_of_lt (levelNumber_lt_four _)]
    exact exec_eewpPack_okWord _ s
  case reserved =>
    refine step_of_reserved (op := .eewpPack) hop fun hrow => ?_
    have hlt := levelNumber_lt_four (EepromLevel.ofCode ((fieldsOf s.req).arg.extractLsb' 0 2))
    rw [argOf_eewpPack_row hrow] at harg
    omega

/-! ### The alarm hour (R202) -/

/-- A valid hour in the context's mode: HOUR.NORM's result. -/
def normalisedHour (c : Config.Context) (x : TaggedHour) : TaggedHour :=
  taggedHour (hourToMode c.isRunningIn24hMode x.tag x.hour.toNat)

theorem hourValid_normalisedHour (c : Config.Context) {x : TaggedHour} (hv : Spec.hourValid x) :
    Spec.hourValid (normalisedHour c x) :=
  hourValid_hourToMode c.isRunningIn24hMode hv

theorem askHour_hourNorm_context (c : Config.Context) {x : TaggedHour} (hv : Spec.hourValid x) :
    askHour (.hourNorm c.isRunningIn24hMode (tagField x.tag) x.hour) = some (normalisedHour c x) :=
  askHour_hourNorm c.isRunningIn24hMode hv

theorem hourFlag_eq_true_iff (t : HourTag) : hourFlag t = true ↔ t = .h24 := by cases t <;> decide

theorem normalisedHour_tag_iff (c : Config.Context) (x : TaggedHour) :
    (normalisedHour c x).tag = .h24 ↔ c.isRunningIn24hMode = true := by
  rw [← hourFlag_eq_true_iff, normalisedHour, taggedHour_tag, hourFlag_hourToMode]

/-- The alarm hour byte of a valid hour is the HOURS byte of the hour in the current mode. -/
theorem alarmHour_of_valid (c : Config.Context) {x : TaggedHour} (hv : Spec.hourValid x) :
    alarmHour c x = some (hourByte (normalisedHour c x).tag (normalisedHour c x).hour.toNat) := by
  rw [alarmHour, askHour_hourNorm_context c hv]
  exact askByte_hourEnc (hourValid_normalisedHour c hv)

/-- Settles O49: the hour in the current mode is valid, and its HOURS byte decodes to it. -/
theorem alarmHourIsNormalisedHour : Obligations.AlarmHourIsNormalisedHour := by
  refine ⟨fun c x hv => ?_, askHour_hourNorm_eq (t := .h24) (by decide) rfl,
    askByte_hourEnc (x := ⟨.pm, 11#8⟩) (by decide), alarmHour_of_valid _ (by decide)⟩
  have hvalid := hourValid_normalisedHour c hv
  exact ⟨normalisedHour c x, _, askHour_hourNorm_context c hv, hvalid, askByte_hourEnc hvalid,
    alarmHour_of_valid c hv, askHour_hourDec_hourByte hvalid, normalisedHour_tag_iff c x⟩

/-! ### Whole alarms (R201) -/

/-- `eval_encode` for any instruction, well-formed or not: its own row fits its request word. -/
theorem eval_encode_of_exec {i : Instr} {r : Response} (hexec : ∀ s, exec i s = .next (s.respond r)) :
    eval (encode i) = some r.toWord := by
  have hrow : (State.reset.present (encode i)).req &&& i.op.format.mask = i.op.matchWord := encode_match i
  rw [eval, step_of_row hrow, present_req, instrOf_encode, hexec]
  rfl

/-- The requester stops at a response that is not OK, whatever it asks for (R99, R222). -/
theorem ask_of_raise {i : Instr} {cause : Cause} (hexec : ∀ s, exec i s = raise cause s) : ask i = none := by
  have hstatus : cause.status ≠ 0b00#2 := by cases cause <;> decide
  simp only [ask, eval_encode_of_exec hexec, rspStatus_raised, if_neg hstatus]

/-- HOUR.NORM refuses an hour out of its range, so there is no alarm hour byte of it. -/
theorem alarmHour_eq (c : Config.Context) (x : TaggedHour) :
    alarmHour c x =
      if Spec.hourValid x then some (hourByte (normalisedHour c x).tag (normalisedHour c x).hour.toNat) else none := by
  by_cases hv : Spec.hourValid x
  · rw [if_pos hv, alarmHour_of_valid c hv]
  · have hexec (s : State) : exec (.hourNorm c.isRunningIn24hMode (tagField x.tag) x.hour) s = raise .invalidInput s :=
      (execHourNorm_tagField _ x.tag x.hour s).trans (if_neg (mt (validHour_iff _ _).mp hv))
    rw [if_neg hv, alarmHour, askHour, ask_of_raise hexec]
    rfl

/-- ALMWK.PACK's byte, or none for a weekday out of its range or an unused match code. -/
theorem askByte_almwkPack (a : Byte) (code : MatchCode) (pol : Bool) :
    askByte (.almwkPack a code pol) =
      if code.used = false ∨ a.toNat < 1 ∨ 7 < a.toNat then none else some (alarmWkdayByte a code pol) := by
  cases hused : code.used with
  | false =>
    have hwf := (wf_almwkPack a code pol).trans hused
    rw [askByte, ask_of_raise (exec_of_illFormed hwf), if_pos (.inl rfl), Option.map_none]
  | true =>
    simpa using (packsByte_almwkPack hused a pol).askByte_eq ((wf_almwkPack a code pol).trans hused)

/-- ALM.SEC.PACK is SEC.PACK with no bit folded in (R96). -/
theorem askByte_secPack_false (a : Byte) :
    askByte (.secPack a false) = if 60 ≤ a.toNat then none else some (bcd a.toNat) := by
  have hfold : fold false 7 = 0#8 := by decide
  rw [askByte_secPack, hfold, BitVec.or_zero]

/-- The six bytes of a valid alarm (R201). -/
def packedAlarm (c : Config.Context) (d : AlarmDateTime) (m : MatchCode) (p : Bool) : AlarmRegs where
  sec := bcd d.second.toNat
  min := bcd d.minute.toNat
  hour := hourByte (normalisedHour c d.hour).tag (normalisedHour c d.hour).hour.toNat
  wkday := alarmWkdayByte d.weekday m p
  date := bcd d.day.toNat
  mth := bcd d.month.toNat

/-- The requests all answer OK exactly for a valid alarm with a used match code, and then give its six bytes. -/
theorem packAlarm_eq_some_iff (c : Config.Context) (d : AlarmDateTime) (m : MatchCode) (p : Bool) (r : AlarmRegs) :
    packAlarm c d m p = some r ↔ Spec.alarmValid d ∧ m.used = true ∧ packedAlarm c d m p = r := by
  simp only [packAlarm, Pseudo.expand, Option.bind_eq_bind, Option.bind_eq_some_iff, askByte_secPack_false,
    askByte_minPack, alarmHour_eq, askByte_almwkPack, askByte_dayPack, askByte_monthPack,
    Option.ite_none_left_eq_some, Option.ite_none_right_eq_some, Option.some.injEq, not_or, Bool.not_eq_false]
  constructor
  · rintro ⟨_, ⟨hsecond, rfl⟩, _, ⟨hminute, rfl⟩, _, ⟨hhour, rfl⟩, _, ⟨⟨hused, hweekday⟩, rfl⟩, _, ⟨hday, rfl⟩,
      _, ⟨hmonth, rfl⟩, rfl⟩
    refine ⟨⟨?_, ?_, ?_, ?_, ?_, ?_, hhour, ?_, ?_⟩, hused, rfl⟩
    all_goals omega
  · rintro ⟨⟨hmonth1, hmonth12, hday1, hday31, hweekday1, hweekday7, hhour, hminute, hsecond⟩, hused, rfl⟩
    exact ⟨_, ⟨by omega, rfl⟩, _, ⟨by omega, rfl⟩, _, ⟨hhour, rfl⟩, _, ⟨⟨hused, by omega⟩, rfl⟩,
      _, ⟨by omega, rfl⟩, _, ⟨by omega, rfl⟩, rfl⟩

/-- Settles O50: the requests answer OK exactly for a valid alarm with a used match code. -/
theorem packAlarmGivesPayload : Obligations.PackAlarmGivesPayload := by
  refine ⟨fun c d m p hv h5 h6 => ?valid, fun c d m p hbad => ?invalid⟩
  case valid =>
    have hpack := (packAlarm_eq_some_iff c d m p _).mpr ⟨hv, (used_iff m).mpr ⟨h5, h6⟩, rfl⟩
    obtain ⟨-, -, -, -, -, -, hhour, -, -⟩ := hv
    exact ⟨packedAlarm c d m p, hpack, (alarmHour_of_valid c hhour).symm, eq_spec_byte (bcd_toNat _),
      eq_spec_byte (bcd_toNat _), eq_spec_byte (alarmWkdayByte_toNat ..), eq_spec_byte (bcd_toNat _),
      eq_spec_byte (bcd_toNat _), rfl, rfl⟩
  case invalid =>
    rw [Option.eq_none_iff_forall_ne_some]
    intro r hr
    obtain ⟨hv, hused, -⟩ := (packAlarm_eq_some_iff c d m p r).mp hr
    obtain ⟨h5, h6⟩ := (used_iff m).mp hused
    rcases hbad with hbad | hbad | hbad
    · exact hbad hv
    · exact h5 hbad
    · exact h6 hbad

/-! ### The rewrite of alarm 0's polarity (R203) -/

theorem polarityRewrite_alarm0 (c : Config.Context) (p : Bool) (w : Byte) :
    polarityRewrite c .alarm0 p w = some [] := rfl

theorem polarityRewrite_alarm1_of_eq {c : Config.Context} {p : Bool} (hp : p = c.alarmPolarityHigh) (w : Byte) :
    polarityRewrite c .alarm1 p w = some [] :=
  if_pos hp

/-- BIT.WR with ALMPOL's mask keeps every other bit of the byte read. -/
theorem polarityRewrite_alarm1_of_ne {c : Config.Context} {p : Bool} (hp : p ≠ c.alarmPolarityHigh) (w : Byte) :
    polarityRewrite c .alarm1 p w = some [[0x0D#8, if p then w ||| 0x80#8 else w &&& 0x7F#8]] := by
  have hbit : askByte (Pseudo.almpolWr w p).expand = some (if p then w ||| 0x80#8 else w &&& 0x7F#8) :=
    askByte_bitWr w DeviceFlag.almpol.mask p
  rw [polarityRewrite, if_neg hp, hbit]
  rfl

/-- What is written for an alarm that packs: the rewrite, if any, then the payload. -/
theorem alarmWrites_eq {c : Config.Context} {sel : AlarmSel} {d : AlarmDateTime} {m : MatchCode} {p : Bool} {w : Byte}
    {r : AlarmRegs} {first : List (List Byte)} (hpack : packAlarm c d m p = some r)
    (hfirst : polarityRewrite c sel p w = some first) : alarmWrites c sel d m p w = some (first ++ [r.payload sel]) := by
  rw [alarmWrites, hpack, hfirst]
  rfl

theorem alarmWrites_of_none {c : Config.Context} {d : AlarmDateTime} {m : MatchCode} {p : Bool}
    (hpack : packAlarm c d m p = none) (sel : AlarmSel) (w : Byte) : alarmWrites c sel d m p w = none := by
  rw [alarmWrites, hpack]
  rfl

/-- Settles O51: what goes before the payload depends on the alarm and the polarity alone. -/
theorem alarmOnePolarityRewritesAlarmZero : Obligations.AlarmOnePolarityRewritesAlarmZero :=
  ⟨fun _ _ _ _ w _ hpack hp => alarmWrites_eq hpack (polarityRewrite_alarm1_of_ne hp w),
    fun _ _ _ _ w _ hpack hp => alarmWrites_eq hpack (polarityRewrite_alarm1_of_eq hp w),
    fun c _ _ p w _ hpack => alarmWrites_eq hpack (polarityRewrite_alarm0 c p w),
    fun _ sel _ _ _ w hpack => alarmWrites_of_none hpack sel w⟩

/-! ### Power-fail records (R206) -/

theorem askByte_pfWkdayUnpack (a : Byte) : askByte (.pfWkdayUnpack a) = some (Spec.byte (a.toNat / 32)) := by
  rw [askByte_of_answer rfl (exec_pfWkdayUnpack a), setWidth_half, extractLsb'_5_3_toNat, Spec.byte]

theorem askByte_pfMonthUnpack (a : Byte) :
    askByte (.pfMonthUnpack a) = some (BitVec.ofNat 8 (dec (a &&& 0x1F#8))) :=
  (decodesByte_pfMonthUnpack a).askByte_eq rfl (ofNat_dec_toNat _).symm

/-- What a record's four bytes decode to. -/
def powerFailOf (r : PowerFailRegs) : PowerFailDateTime where
  month := BitVec.ofNat 8 (dec (r.wkdayMonth &&& 0x1F#8))
  day := BitVec.ofNat 8 (dec r.day)
  weekday := Spec.byte (r.wkdayMonth.toNat / 32)
  hour := taggedHour (hourOfByte r.hour)
  minute := BitVec.ofNat 8 (dec r.min)

theorem unpackPowerFail_eq (r : PowerFailRegs) : unpackPowerFail r = some (powerFailOf r) := by
  simp only [unpackPowerFail, Pseudo.expand, askByte_bcdDec, askHour_hourDec, askByte_pfWkdayUnpack,
    askByte_pfMonthUnpack, Option.bind_eq_bind, Option.bind_some, powerFailOf]

/-- Settles O52: none of the five requests has a range to check, and each field is its request's answer. -/
theorem powerFailRecordDecodes : Obligations.PowerFailRecordDecodes := by
  intro r
  have hdec (b : Byte) : (BitVec.ofNat 8 (dec b)).toNat = Spec.dec b.toNat := by
    rw [ofNat_dec_toNat, dec_eq, Spec.dec]
  have hlt := r.wkdayMonth.isLt
  refine ⟨powerFailOf r, unpackPowerFail_eq r, hdec r.min, ?tag, ?hour, hdec r.day, ?weekday, ?month⟩
  case tag => rw [spec_hourOfByte, powerFailOf, taggedHour_tag]
  case hour => rw [spec_hourOfByte, powerFailOf, taggedHour_hour_toNat (hourOfByte_le r.hour)]
  case weekday => rw [powerFailOf, Spec.byte, BitVec.toNat_ofNat, Nat.mod_eq_of_lt (by omega)]
  case month =>
    have hmask : (r.wkdayMonth &&& 0x1F#8).toNat = r.wkdayMonth.toNat % 32 :=
      (BitVec.toNat_and ..).trans (Nat.and_two_pow_sub_one_eq_mod _ 5)
    rw [powerFailOf, hdec, hmask]

end Sys2Proof.Machine


/-! ## Exceptions (60_exceptions.md)

The checks of R221 read on the instruction: the ones on the spelling give ILLEGAL_REQUEST (`exec_of_illFormed`), the one
on the range tells INVALID_INPUT from an OK response (`exec_inRange`). -/

namespace Sys2Proof.Machine

/-- A well-formed instruction raises INVALID_INPUT where its operand is out of its range (R220). -/
theorem exec_of_outOfRange {i : Instr} (hwf : i.wf = true) (hbad : Spec.operandOutOfRange i) (s : State) :
    exec i s = raise .invalidInput s := by
  rcases exec_inRange hwf with ⟨-, hexec⟩ | ⟨hgood, -⟩
  · exact hexec s
  · exact absurd hbad hgood

/-- A well-formed instruction answers OK where its operand is in its range (R88, R220). -/
theorem exec_of_operandInRange {i : Instr} (hwf : i.wf = true) (hgood : ¬ Spec.operandOutOfRange i) (s : State) :
    ∃ result : Half, exec i s = answer result (okTag i) (okFlag i) s := by
  rcases exec_inRange hwf with ⟨hbad, -⟩ | ⟨-, result, -, hexec⟩
  · exact absurd hbad hgood
  · exact ⟨result, hexec s⟩

/-- Settles O30: the spelling is checked first, then the range. -/
theorem execRaisesExactlyOutOfRange : Obligations.ExecRaisesExactlyOutOfRange := by
  refine ⟨fun i s hwf => ?illFormed, fun i s hwf hbad => ?outOfRange, fun i s hwf hgood => ?inRange⟩
  case illFormed => rw [exec_of_illFormed hwf, raise_illegalRequest]
  case outOfRange => rw [exec_of_outOfRange hwf hbad, raise_invalidInput]
  case inRange =>
    obtain ⟨result, hexec⟩ := exec_of_operandInRange hwf hgood s
    exact ⟨_, hexec.trans (answer_eq ..), ok_lt result _ _⟩

end Sys2Proof.Machine


/-! ## The requester's initial context (70_reset_and_hazards.md)

Bit 6 of an alarm's hour byte, H24_H12, follows from the context's mode alone (`alarmHour_bit6`), and the initial
context is in 12-hour mode (R241). -/

namespace Sys2Proof.Machine

/-- The HOURS byte of a valid hour has bit 6, H24_H12, set exactly in 12-hour form (R131). -/
theorem hourByte_bit6 {t : HourTag} {h : Nat} (hv : validHour t h = true) :
    (hourByte t h).getLsbD 6 = !hourFlag t := by
  cases t with
  | h24 => exact getLsbD_eq_false_of_lt (k := 6) ((bcd_le_of_le_23 (validHour_le hv)).trans_lt (by decide)) (le_refl 6)
  | am | pm => exact (BitVec.getLsbD_or ..).trans (Bool.true_or _)

theorem hourFlag_normalisedHour (c : Config.Context) (x : TaggedHour) :
    hourFlag (normalisedHour c x).tag = c.isRunningIn24hMode :=
  Bool.eq_iff_iff.mpr ((hourFlag_eq_true_iff _).trans (normalisedHour_tag_iff c x))

/-- An alarm's hour byte has bit 6 set exactly where the context is in 12-hour mode (R202). -/
theorem alarmHour_bit6 (c : Config.Context) {x : TaggedHour} (hv : Spec.hourValid x) :
    ∃ b : Byte, alarmHour c x = some b ∧ b.getLsbD 6 = !c.isRunningIn24hMode := by
  refine ⟨_, alarmHour_of_valid c hv, ?_⟩
  rw [hourByte_bit6 ((validHour_iff _ _).mpr (hourValid_normalisedHour c hv)), hourFlag_normalisedHour]

/-- Settles O53: the five values are the definition's, and the mode among them is the 12-hour one. -/
theorem initialContextValues : Obligations.InitialContextValues :=
  ⟨rfl, fun _ => alarmHour_bit6 Config.initialContext⟩

end Sys2Proof.Machine
